-- ==== Sys2Proof/Word.lean ====
section
/-! DEFINITION. The word types of the core (00_scope.md R5, R7; 10_state.md R20). -/

namespace Sys2Proof

/-- A memory byte, a general register, a timer, an immediate NN: 8 bits (R5). -/
abbrev Byte := BitVec 8

/-- An instruction word, and each of I, PC, SP and a stack entry: 16 bits (R5). -/
abbrev Word := BitVec 16

/-- One of the four 4-bit pieces of an instruction word (R81). -/
abbrev Nibble := BitVec 4

/-- The 12-bit address operand NNN (R7, R82). -/
abbrev Addr := BitVec 12

/-- A register number, 0 for V0 to 15 for VF (R20). -/
abbrev Reg := Fin 16

end Sys2Proof
end

