-- ==== Sys2Proof/Syntax.lean ====
section
/-! DEFINITION. The 34 instructions of 30_encoding.md R83, one constructor per row of the opcode table, in its order.
A constructor holds the operands its rule names; bits that the decoder ignores (R84, R85) are no operand (log 21). -/

namespace Sys2Proof

inductive Instr where
  /-- 00E0 CLS (R170) -/
  | cls
  /-- 00EE RET (R101) -/
  | ret
  /-- 1NNN JP addr (R102) -/
  | jp (nnn : Addr)
  /-- 2NNN CALL addr (R103) -/
  | call (nnn : Addr)
  /-- 3XNN SE Vx, byte (R104) -/
  | seByte (x : Reg) (nn : Byte)
  /-- 4XNN SNE Vx, byte (R105) -/
  | sneByte (x : Reg) (nn : Byte)
  /-- 5XY0 SE Vx, Vy (R106) -/
  | seReg (x y : Reg)
  /-- 6XNN LD Vx, byte (R121) -/
  | ldByte (x : Reg) (nn : Byte)
  /-- 7XNN ADD Vx, byte (R122) -/
  | addByte (x : Reg) (nn : Byte)
  /-- 8XY0 LD Vx, Vy (R123) -/
  | ldReg (x y : Reg)
  /-- 8XY1 OR Vx, Vy (R124) -/
  | orReg (x y : Reg)
  /-- 8XY2 AND Vx, Vy (R125) -/
  | andReg (x y : Reg)
  /-- 8XY3 XOR Vx, Vy (R126) -/
  | xorReg (x y : Reg)
  /-- 8XY4 ADD Vx, Vy (R127) -/
  | addReg (x y : Reg)
  /-- 8XY5 SUB Vx, Vy (R128) -/
  | sub (x y : Reg)
  /-- 8XY6 SHR Vx, with Vy encoded and not read (R129) -/
  | shr (x y : Reg)
  /-- 8XY7 SUBN Vx, Vy (R130) -/
  | subn (x y : Reg)
  /-- 8XYE SHL Vx, with Vy encoded and not read (R131) -/
  | shl (x y : Reg)
  /-- 9XY0 SNE Vx, Vy (R107) -/
  | sneReg (x y : Reg)
  /-- ANNN LD I, addr (R150) -/
  | ldI (nnn : Addr)
  /-- BNNN JP V0, addr (R108) -/
  | jpV0 (nnn : Addr)
  /-- CXNN RND Vx, byte (R132) -/
  | rnd (x : Reg) (nn : Byte)
  /-- DXYN DRW Vx, Vy, nibble, with `n` the number of rows (R171, R82) -/
  | drw (x y : Reg) (n : Nat)
  /-- EX9E SKP Vx (R180) -/
  | skp (x : Reg)
  /-- EXA1 SKNP Vx (R181) -/
  | sknp (x : Reg)
  /-- FX07 LD Vx, DT (R182) -/
  | ldVxDt (x : Reg)
  /-- FX0A LD Vx, K (R183) -/
  | ldVxK (x : Reg)
  /-- FX15 LD DT, Vx (R184) -/
  | ldDtVx (x : Reg)
  /-- FX18 LD ST, Vx (R185) -/
  | ldStVx (x : Reg)
  /-- FX1E ADD I, Vx (R151) -/
  | addI (x : Reg)
  /-- FX29 LD F, Vx (R152) -/
  | ldF (x : Reg)
  /-- FX33 LD B, Vx (R153) -/
  | ldB (x : Reg)
  /-- FX55 LD [I], Vx (R155) -/
  | ldMemVx (x : Reg)
  /-- FX65 LD Vx, [I] (R156) -/
  | ldVxMem (x : Reg)
  deriving DecidableEq, Repr

end Sys2Proof
end

