-- ==== Sys2Proof/Decode.lean ====
section
/-! DEFINITION. The decoder (30_encoding.md R81 to R88), total and depending only on the word (R88), and after it the
encoder, written from the same formats. -/

namespace Sys2Proof

/-- w[15:12], the primary opcode family (R81). -/
def family (w : Word) : Nibble := w.extractLsb' 12 4

/-- X = w[11:8] as a register number (R7, R82). -/
def fieldX (w : Word) : Reg := (w.extractLsb' 8 4).toFin

/-- Y = w[7:4] as a register number (R7, R82). -/
def fieldY (w : Word) : Reg := (w.extractLsb' 4 4).toFin

/-- N = w[3:0] (R7). -/
def fieldN (w : Word) : Nibble := w.extractLsb' 0 4

/-- NN = w[7:0] (R7). -/
def fieldNN (w : Word) : Byte := w.extractLsb' 0 8

/-- NNN = w[11:0] (R7). -/
def fieldNNN (w : Word) : Addr := w.extractLsb' 0 12

/-- Why bytes give no instruction: R86's four classes of unmatched words, by name, and too few bytes for a word. -/
inductive DecodeError where
  /-- 0x0NNN with NN neither E0 nor EE -/
  | unmatchedFamily0
  /-- 0x8XYN with N in 8, 9, A, B, C, D, F -/
  | unmatchedFamily8
  /-- 0xEXNN with NN neither 9E nor A1 -/
  | unmatchedFamilyE
  /-- 0xFXNN with NN none of 07, 0A, 15, 18, 1E, 29, 33, 55, 65 -/
  | unmatchedFamilyF
  /-- fewer than two bytes (never raised by a fetch, which always reads two) -/
  | truncated
  deriving DecidableEq, Repr

/-- Family 0 looks only at w[7:0] (R84, the spec's decision D3, log 9). -/
def decodeFamily0 (w : Word) : Except DecodeError Instr :=
  if fieldNN w = 0xE0#8 then .ok .cls
  else if fieldNN w = 0xEE#8 then .ok .ret
  else .error .unmatchedFamily0

/-- Family 8 is disambiguated by w[3:0] (R83). -/
def decodeFamily8 (w : Word) : Except DecodeError Instr :=
  if fieldN w = 0x0#4 then .ok (.ldReg (fieldX w) (fieldY w))
  else if fieldN w = 0x1#4 then .ok (.orReg (fieldX w) (fieldY w))
  else if fieldN w = 0x2#4 then .ok (.andReg (fieldX w) (fieldY w))
  else if fieldN w = 0x3#4 then .ok (.xorReg (fieldX w) (fieldY w))
  else if fieldN w = 0x4#4 then .ok (.addReg (fieldX w) (fieldY w))
  else if fieldN w = 0x5#4 then .ok (.sub (fieldX w) (fieldY w))
  else if fieldN w = 0x6#4 then .ok (.shr (fieldX w) (fieldY w))
  else if fieldN w = 0x7#4 then .ok (.subn (fieldX w) (fieldY w))
  else if fieldN w = 0xE#4 then .ok (.shl (fieldX w) (fieldY w))
  else .error .unmatchedFamily8

/-- Family E is disambiguated by w[7:0] (R83). -/
def decodeFamilyE (w : Word) : Except DecodeError Instr :=
  if fieldNN w = 0x9E#8 then .ok (.skp (fieldX w))
  else if fieldNN w = 0xA1#8 then .ok (.sknp (fieldX w))
  else .error .unmatchedFamilyE

/-- Family F is disambiguated by w[7:0] (R83). -/
def decodeFamilyF (w : Word) : Except DecodeError Instr :=
  if fieldNN w = 0x07#8 then .ok (.ldVxDt (fieldX w))
  else if fieldNN w = 0x0A#8 then .ok (.ldVxK (fieldX w))
  else if fieldNN w = 0x15#8 then .ok (.ldDtVx (fieldX w))
  else if fieldNN w = 0x18#8 then .ok (.ldStVx (fieldX w))
  else if fieldNN w = 0x1E#8 then .ok (.addI (fieldX w))
  else if fieldNN w = 0x29#8 then .ok (.ldF (fieldX w))
  else if fieldNN w = 0x33#8 then .ok (.ldB (fieldX w))
  else if fieldNN w = 0x55#8 then .ok (.ldMemVx (fieldX w))
  else if fieldNN w = 0x65#8 then .ok (.ldVxMem (fieldX w))
  else .error .unmatchedFamilyF

/-- The decode map of R83. Families 5 and 9 ignore w[3:0] (R85, the spec's decision D4, log 9). -/
def decodeWord (w : Word) : Except DecodeError Instr :=
  match family w with
  | 0x0#4 => decodeFamily0 w
  | 0x1#4 => .ok (.jp (fieldNNN w))
  | 0x2#4 => .ok (.call (fieldNNN w))
  | 0x3#4 => .ok (.seByte (fieldX w) (fieldNN w))
  | 0x4#4 => .ok (.sneByte (fieldX w) (fieldNN w))
  | 0x5#4 => .ok (.seReg (fieldX w) (fieldY w))
  | 0x6#4 => .ok (.ldByte (fieldX w) (fieldNN w))
  | 0x7#4 => .ok (.addByte (fieldX w) (fieldNN w))
  | 0x8#4 => decodeFamily8 w
  | 0x9#4 => .ok (.sneReg (fieldX w) (fieldY w))
  | 0xA#4 => .ok (.ldI (fieldNNN w))
  | 0xB#4 => .ok (.jpV0 (fieldNNN w))
  | 0xC#4 => .ok (.rnd (fieldX w) (fieldNN w))
  | 0xD#4 => .ok (.drw (fieldX w) (fieldY w) (fieldN w).toNat)
  | 0xE#4 => decodeFamilyE w
  | _ => decodeFamilyF w

/-- The instruction word of two bytes, the first one (at the lower address) in bits 15:8 (R62). -/
def joinBytes (hi lo : Byte) : Word := hi ++ lo

/-- bits 15:8, the byte at the lower address (R62). -/
def highByte (w : Word) : Byte := w.extractLsb' 8 8

/-- bits 7:0, the byte at the higher address (R62). -/
def lowByte (w : Word) : Byte := w.extractLsb' 0 8

/-- Decoding a list of bytes: one instruction and the bytes after it, or the reason there is none. -/
def decode : List Byte → Except DecodeError (Instr × List Byte)
  | hi :: lo :: rest =>
    match decodeWord (joinBytes hi lo) with
    | .ok i => .ok (i, rest)
    | .error e => .error e
  | _ => .error .truncated

/-- The 16-bit word of an opcode-table number: its lowest `nbits` bits, every bit above them 0. -/
def tableWord (nbits w : Nat) : Word := BitVec.ofNat 16 (w % 2 ^ nbits)

/-- What the decoder reads from the word `w`, laid out as its two bytes in memory order. -/
def decodeTableWord (nbits w : Nat) : Option Instr :=
  match decode [highByte (tableWord nbits w), lowByte (tableWord nbits w)] with
  | .ok (i, _) => some i
  | .error _ => none

/-- The 4-bit register field. -/
def nibbleOf (r : Reg) : Nibble := BitVec.ofFin r

/-- Format F-NNN (R81). -/
def wordNNN (f : Nibble) (nnn : Addr) : Word := f ++ nnn

/-- Formats F-X-NN and F-X-OP8 (R81). -/
def wordXNN (f : Nibble) (x : Reg) (nn : Byte) : Word := f ++ nibbleOf x ++ nn

/-- Format F-X-Y-N (R81). -/
def wordXYN (f : Nibble) (x y : Reg) (n : Nibble) : Word := f ++ nibbleOf x ++ nibbleOf y ++ n

/-- The word of an instruction (R81, R83), with the bits the decoder ignores written as 0. -/
def encode : Instr → Word
  | .cls => wordXNN 0x0 0 0xE0
  | .ret => wordXNN 0x0 0 0xEE
  | .jp nnn => wordNNN 0x1 nnn
  | .call nnn => wordNNN 0x2 nnn
  | .seByte x nn => wordXNN 0x3 x nn
  | .sneByte x nn => wordXNN 0x4 x nn
  | .seReg x y => wordXYN 0x5 x y 0x0
  | .ldByte x nn => wordXNN 0x6 x nn
  | .addByte x nn => wordXNN 0x7 x nn
  | .ldReg x y => wordXYN 0x8 x y 0x0
  | .orReg x y => wordXYN 0x8 x y 0x1
  | .andReg x y => wordXYN 0x8 x y 0x2
  | .xorReg x y => wordXYN 0x8 x y 0x3
  | .addReg x y => wordXYN 0x8 x y 0x4
  | .sub x y => wordXYN 0x8 x y 0x5
  | .shr x y => wordXYN 0x8 x y 0x6
  | .subn x y => wordXYN 0x8 x y 0x7
  | .shl x y => wordXYN 0x8 x y 0xE
  | .sneReg x y => wordXYN 0x9 x y 0x0
  | .ldI nnn => wordNNN 0xA nnn
  | .jpV0 nnn => wordNNN 0xB nnn
  | .rnd x nn => wordXNN 0xC x nn
  | .drw x y n => wordXYN 0xD x y (BitVec.ofNat 4 n)
  | .skp x => wordXNN 0xE x 0x9E
  | .sknp x => wordXNN 0xE x 0xA1
  | .ldVxDt x => wordXNN 0xF x 0x07
  | .ldVxK x => wordXNN 0xF x 0x0A
  | .ldDtVx x => wordXNN 0xF x 0x15
  | .ldStVx x => wordXNN 0xF x 0x18
  | .addI x => wordXNN 0xF x 0x1E
  | .ldF x => wordXNN 0xF x 0x29
  | .ldB x => wordXNN 0xF x 0x33
  | .ldMemVx x => wordXNN 0xF x 0x55
  | .ldVxMem x => wordXNN 0xF x 0x65

/-- The two bytes of an instruction in memory order (R62). -/
def encodeBytes (i : Instr) : List Byte := [highByte (encode i), lowByte (encode i)]

end Sys2Proof
end

