-- ==== Sys2Proof/Config.lean ====
section
/-! DEFINITION. The parameters of one machine (00_scope.md R6) and the free value of CXNN (41_alu.md R132). -/

namespace Sys2Proof

/-- The parameters of R6, "each fixed for the whole lifetime of one machine". They are plain data that State carries,
so that a claim about every state is a claim about every choice of them; no operation changes them. -/
structure Config where
  /-- DT_INIT: delay_timer after reset (OPEN in the spec, D14) -/
  dtInit : Byte
  /-- ST_INIT: sound_timer after reset (OPEN in the spec, D14) -/
  stInit : Byte
  /-- FONT: 16 glyphs of 5 bytes, glyph d at address 5·d after reset (OPEN in the spec, D15) -/
  font : Vector (Vector Byte 5) 16
  /-- STRICT: report unmatched words and stack errors instead of the lenient behaviour (R202 to R204) -/
  strict : Bool
  deriving DecidableEq, Repr

/-- The 80 bytes of FONT in address order (20_memory.md R65: glyph d at address d × 5). -/
@[irreducible] def Config.fontBytes (c : Config) : List Byte :=
  List.ofFn fun j : Fin 80 => (c.font[j.val / 5]'(by omega))[j.val % 5]'(by omega)

/-- RND: the byte the host supplies at the k-th execution of CXNN, "drawn freely at this step, with no distribution,
seed or sequence modelled" (R132, D19). It has no body: nothing can be proved of its values. DESIGN CHOICE (log 4). -/
opaque Config.randomByte : Nat → Byte

end Sys2Proof
end

