-- ==== Sys2Proof/Machine/Defaults.lean ====
section
/-! DEFINITION. The values `State.reset` gives the parameters of R6, and what memory nobody has written reads as. -/

namespace Sys2Proof.Machine

/-- The conventional glyph table, the default the spec gives for FONT (20_memory.md R65, "from general knowledge, not
in source", D15). PRESUMED by the spec (log 2). -/
def defaultFont : Vector (Vector Byte 5) 16 := #v[
  #v[0xF0, 0x90, 0x90, 0x90, 0xF0],
  #v[0x20, 0x60, 0x20, 0x20, 0x70],
  #v[0xF0, 0x10, 0xF0, 0x80, 0xF0],
  #v[0xF0, 0x10, 0xF0, 0x10, 0xF0],
  #v[0x90, 0x90, 0xF0, 0x10, 0x10],
  #v[0xF0, 0x80, 0xF0, 0x10, 0xF0],
  #v[0xF0, 0x80, 0xF0, 0x90, 0xF0],
  #v[0xF0, 0x10, 0x20, 0x40, 0x40],
  #v[0xF0, 0x90, 0xF0, 0x90, 0xF0],
  #v[0xF0, 0x90, 0xF0, 0x10, 0xF0],
  #v[0xF0, 0x90, 0xF0, 0x90, 0x90],
  #v[0xE0, 0x90, 0xE0, 0x90, 0xE0],
  #v[0xF0, 0x80, 0x80, 0x80, 0xF0],
  #v[0xE0, 0x90, 0x90, 0x90, 0xE0],
  #v[0xF0, 0x80, 0xF0, 0x80, 0xF0],
  #v[0xF0, 0x80, 0xF0, 0x80, 0x80]]

/-- The parameters `State.reset` carries: timers 0 (DESIGN CHOICE, log 1), the default glyph table (log 2), lenient
mode (R6: "Default `false`"). -/
def defaultConfig : Config :=
  { dtInit := 0, stInit := 0, font := defaultFont, strict := false }

/-- The value of IR after reset: reset does not write IR and its value before the first step is unspecified (R35,
R45, D18). DESIGN CHOICE (log 1). -/
def irPowerOn : Word := 0

/-- What a memory byte that no cell lists reads as: the default glyph table where reset writes it (R65), and 0
elsewhere, where the spec leaves MEM_POWERON open (R46, D16). DESIGN CHOICE (log 3). -/
def unlistedByte (a : Nat) : Byte :=
  if h : a < 80 then (defaultFont[a / 5]'(by omega))[a % 5]'(by omega) else 0

end Sys2Proof.Machine
end

