-- ==== Sys2Proof/Machine/State.lean ====
section
/-! DEFINITION. The whole machine state (10_state.md, 20_memory.md R60), the reasons a step can stop, and the state
right after reset (R45). -/

namespace Sys2Proof.Machine

/-- Memory as (address, byte) cells: addresses strictly rising and below 4096, no cell equal to `unlistedByte` of its
address (`Memory.wf`). -/
abbrev Memory := List Host.Cell

/-- The 64 × 32 display, row y then column x; `true` is a lit cell (R34). -/
abbrev Display := Vector (Vector Bool 64) 32

/-- What an operation of the core returns to its caller (60_exceptions.md R201, R219). -/
inductive Reply where
  /-- success -/
  | ok
  /-- `load` with an image of more than 3584 bytes (R231) -/
  | imageTooLarge
  /-- `set_key` with an index outside 0..15 (R216) -/
  | invalidKeyIndex
  /-- `step` on an unmatched word, strict mode only (R202) -/
  | unknownInstruction
  /-- `step` on 2NNN with SP ≥ 16, strict mode only (R203) -/
  | stackOverflow
  /-- `step` on 00EE with SP = 0, strict mode only (R204) -/
  | stackUnderflow
  deriving DecidableEq, Repr

/-- Everything the spec gives the machine, and three fields of the model's own (`reply`, `draws`, `cfg`). -/
structure State where
  /-- V0..VF (R20) -/
  v : Vector Byte 16
  /-- I (R27) -/
  i : Word
  /-- PC (R23) -/
  pc : Word
  /-- SP (R30) -/
  sp : Word
  /-- stack[0..15] (R29) -/
  stack : Vector Word 16
  /-- delay_timer DT (R32) -/
  dt : Byte
  /-- sound_timer ST (R32) -/
  st : Byte
  /-- keys[0..15], `true` when pressed (R33) -/
  keys : Vector Bool 16
  /-- the framebuffer (R34) -/
  disp : Display
  /-- mem[0..4095] (R60) -/
  mem : Memory
  /-- the fetch latch IR (R35) -/
  ir : Word
  /-- what the latest operation returned to the host (R219), the model's own field -/
  reply : Reply
  /-- how many random bytes CXNN has drawn, the model's own field (log 4) -/
  draws : Nat
  /-- the parameters of R6, the model's own field (log 5) -/
  cfg : Config
  deriving DecidableEq, Repr

/-- Faults of a step: none. No access faults (20_memory.md R66), the core has no trap mechanism, and every error is a
reply after which the host may go on (60_exceptions.md R200, R205), so nothing raises a fault. -/
inductive Fault where
  deriving DecidableEq, Repr

/-- Refusals of a step. -/
inductive Refusal where
  /-- Raised only by an arm of `exec` that has no meaning yet (no arm has this). Safe: the machine stops. -/
  | notModelled (mnemonic : String)
  deriving DecidableEq, Repr

/-- The machine right after reset (R45, R230). DT, ST and IR hold values of the model's (log 1), memory outside the
glyph table reads as 0 (log 3). -/
def State.reset : State where
  v := Vector.replicate 16 0
  i := 0
  pc := 0x0200
  sp := 0
  stack := Vector.replicate 16 0
  dt := defaultConfig.dtInit
  st := defaultConfig.stInit
  keys := Vector.replicate 16 false
  disp := Vector.replicate 32 (Vector.replicate 64 false)
  mem := []
  ir := irPowerOn
  reply := .ok
  draws := 0
  cfg := defaultConfig

end Sys2Proof.Machine
end

