-- ==== Sys2Proof/Machine/Ops.lean ====
section
/-! DEFINITION. The shared operations: memory, register and display accesses, the stack, the fetch, reporting an error
(the core's only exception), and the timer tick. -/

namespace Sys2Proof.Machine

/-! ### Memory (20_memory.md) -/

/-- R61: every access takes its address mod 4096 (the spec's decision D10, log 10). -/
def wrapAddr (a : Nat) : Nat := a % 4096

/-- The byte at the address `a`. -/
def Memory.byteAt : Memory → Nat → Byte
  | [], a => unlistedByte a
  | (k, b) :: m, a => if k = a then b else Memory.byteAt m a

/-- `m` with the byte `b` at the address `a`, in canonical form. -/
def Memory.setByte : Memory → Nat → Byte → Memory
  | [], a, b => if b = unlistedByte a then [] else [(a, b)]
  | (k, c) :: m, a, b =>
    if a < k then (if b = unlistedByte a then (k, c) :: m else (a, b) :: (k, c) :: m)
    else if a = k then (if b = unlistedByte a then m else (a, b) :: m)
    else (k, c) :: Memory.setByte m a b

/-- The canonical form: addresses strictly rising and below 4096, no cell equal to what its address reads as when it
is not listed. -/
def Memory.wf : Memory → Bool
  | [] => true
  | (k, b) :: m => decide (k < 4096) && decide (b ≠ unlistedByte k) && m.all (fun c => decide (k < c.1)) && Memory.wf m

/-- MemRead(a, 1) (00_scope.md R8). -/
def Memory.read (m : Memory) (a : Nat) : Byte := Memory.byteAt m (wrapAddr a)

/-- MemWrite(a, 1, b) (00_scope.md R8). -/
def Memory.write (m : Memory) (a : Nat) (b : Byte) : Memory := Memory.setByte m (wrapAddr a) b

/-- Writes of one byte each at a, a+1, … in this order. -/
def Memory.writeBytes : Memory → Nat → List Byte → Memory
  | m, _, [] => m
  | m, a, b :: bs => Memory.writeBytes (Memory.write m a b) (a + 1) bs

/-! ### One update per piece of state -/

def State.setReg (s : State) (x : Reg) (b : Byte) : State := { s with v := s.v.set x b }
def State.setV (s : State) (v : Vector Byte 16) : State := { s with v := v }
def State.setI (s : State) (w : Word) : State := { s with i := w }
def State.setPc (s : State) (w : Word) : State := { s with pc := w }
def State.setSp (s : State) (w : Word) : State := { s with sp := w }
def State.setStack (s : State) (k : Fin 16) (w : Word) : State := { s with stack := s.stack.set k w }
def State.setDt (s : State) (b : Byte) : State := { s with dt := b }
def State.setSt (s : State) (b : Byte) : State := { s with st := b }
def State.setKeys (s : State) (k : Vector Bool 16) : State := { s with keys := k }
def State.setDisp (s : State) (d : Display) : State := { s with disp := d }
def State.setMem (s : State) (m : Memory) : State := { s with mem := m }
def State.setIr (s : State) (w : Word) : State := { s with ir := w }
def State.setReply (s : State) (r : Reply) : State := { s with reply := r }
def State.setDraws (s : State) (n : Nat) : State := { s with draws := n }

/-! ### Memory of a state -/

/-- MemRead(a, 1) (R8). -/
def State.memRead (s : State) (a : Nat) : Byte := Memory.read s.mem a

/-- MemWrite at a, a+1, … of the bytes in turn (R8, 42_index_memory.md R157). -/
def State.memWrite (s : State) (a : Nat) (bs : List Byte) : State := s.setMem (Memory.writeBytes s.mem a bs)

/-! ### Program counter (10_state.md R24) -/

/-- The default: old(PC) + 2, mod 2^16. -/
def State.advance (s : State) : State := s.setPc (s.pc + 2)

/-- A skip: old(PC) + 4 when it is taken, old(PC) + 2 when not, mod 2^16 (R24, 40_flow.md R100). -/
def State.skipIf (s : State) (taken : Bool) : State := s.setPc (if taken then s.pc + 4 else s.pc + 2)

/-! ### Stack (10_state.md R29 to R31) -/

/-- A stack slot number, taken mod 16 (R30). -/
def stackSlot (w : Word) : Fin 16 := ⟨w.toNat % 16, by omega⟩

/-- Write `w` at slot SP mod 16, then SP + 1 mod 2^16 (R30, the spec's decision D12, log 13). -/
def State.push (s : State) (w : Word) : State := (s.setStack (stackSlot s.sp) w).setSp (s.sp + 1)

/-- The slot a return reads and leaves in SP: (old(SP) − 1) mod 16 (R30). -/
def popSlot (sp : Word) : Fin 16 := stackSlot (sp - 1)

/-! ### Display (10_state.md R34, 43_display.md R171 to R173) -/

/-- disp(x, y), and `false` outside the 64 × 32 cells. -/
def Display.cell (d : Display) (x y : Nat) : Bool :=
  if h : x < 64 ∧ y < 32 then (d[y]'h.2)[x]'h.1 else false

/-- disp(x, y) <- disp(x, y) ^ 1, and nothing outside the 64 × 32 cells. -/
def Display.flip (d : Display) (x y : Nat) : Display :=
  if h : x < 64 ∧ y < 32 then d.set y ((d[y]'h.2).set x (!(d[y]'h.2)[x]'h.1) h.1) h.2 else d

/-- Every cell 0. -/
def blankDisplay : Display := Vector.replicate 32 (Vector.replicate 64 false)

/-- The display and whether some drawn pixel was already 1. -/
abbrev Plot := Display × Bool

/-- One set sprite bit: an in-range cell is flipped and a lit one recorded, an out-of-range one is a no-op (R173). -/
def Plot.pixel (p : Plot) (x y : Nat) : Plot :=
  (Display.flip p.1 x y, p.2 || Display.cell p.1 x y)

/-- One sprite row: bit 7 − c of the byte is column x0 + c, for c = 0 .. 7 (R172, log 12). -/
def Plot.row (p : Plot) (b : Byte) (x0 y : Nat) : Plot :=
  (List.range 8).foldl (fun p c => if b.getLsbD (7 - c) then Plot.pixel p (x0 + c) y else p) p

/-- The rows r = 0 .. n − 1, byte r at address a + r on row y0 + r (R171). -/
def Plot.sprite (m : Memory) (a x0 y0 n : Nat) (p : Plot) : Plot :=
  (List.range n).foldl (fun p r => Plot.row p (Memory.read m (a + r)) x0 (y0 + r)) p

/-! ### The step's own parts (30_encoding.md R80) -/

/-- The word at PC and PC + 1, the byte at PC in bits 15:8 (R62, R80). -/
def State.fetchWord (s : State) : Word := joinBytes (s.memRead s.pc.toNat) (s.memRead (s.pc.toNat + 1))

/-- IR <- w (R80), with the reply of the step still "OK". -/
def State.latch (s : State) (w : Word) : State := (s.setIr w).setReply .ok

/-- TAKING AN EXCEPTION. The core has no vectors, cause register, saved PC or handler (60_exceptions.md R200): an error
is the step's reply to the host, PC still points at the failing instruction, and apart from the IR that the fetch
wrote no state changes (R202 to R205). There is no return from it (R205). Logs 6 and 16. -/
def State.raise (s : State) (e : Reply) : State := s.setReply e

/-- A timer's tick: one less, and never below zero (R210). -/
def decTimer (b : Byte) : Byte := if b = 0 then 0 else b - 1

/-- R210: both timers count down by one unless they are zero. -/
def State.tick (s : State) : State := (s.setDt (decTimer s.dt)).setSt (decTimer s.st)

/-- The end of a step: the tick, skipped when the step reports an error (R80, R210, logs 15 and 16). -/
def State.endStep (s : State) : State := if s.reply = .ok then s.tick else s

/-- The effect of an unmatched word on the state whose IR holds it: an error in strict mode (R202), otherwise nothing,
with PC not advanced (R86, logs 15 and 16). -/
def State.unmatched (s : State) : State := if s.cfg.strict then s.raise .unknownInstruction else s

end Sys2Proof.Machine
end

