-- ==== Sys2Proof/Machine/Operands.lean ====
section
/-! DEFINITION. The operand forms: a register V[X] or V[Y], V0 and VF by name, an immediate NN, an address NNN, the
I-indexed memory operand, and a key index. -/

namespace Sys2Proof.Machine

/-- VF, the flag register (10_state.md R21). -/
def vf : Reg := 15

/-- V[x] (00_scope.md R8). -/
def State.reg (s : State) (x : Reg) : Byte := s.v[x]

/-- A 12-bit address zero-extended to PC or I (30_encoding.md R82). -/
def extAddr (nnn : Addr) : Word := nnn.setWidth 16

/-- A byte zero-extended to 16 bits (00_scope.md R8: no operation sign-extends). -/
def extByte (b : Byte) : Word := b.setWidth 16

/-- The address I + k of the one data addressing mode (42_index_memory.md R157), taken mod 4096 at the access (R61). -/
def State.dataAddr (s : State) (k : Nat) : Nat := s.i.toNat + k

/-- V0, V1, …, V[x] in this order (42_index_memory.md R154). -/
def State.regsUpTo (s : State) (x : Reg) : List Byte := s.v.toList.take (x.val + 1)

/-- The key a register names: the low four bits of its value (44_timers_keys.md R186, the spec's decision D13, log 14). -/
def keyIndex (b : Byte) : Fin 16 := ⟨b.toNat % 16, by omega⟩

/-- keys[k] = 1. -/
def State.keyDown (s : State) (k : Fin 16) : Bool := s.keys[k]

/-- min { k | keys[k] = 1 }, or nothing when no key is pressed (44_timers_keys.md R183). -/
def State.lowestKey (s : State) : Option Nat :=
  (List.range 16).find? (fun k => s.keys.getD k false)

end Sys2Proof.Machine
end

