-- ==== Sys2Proof/Machine/Flags.lean ====
section
/-! DEFINITION. The flag values that instructions write to VF (10_state.md R22). -/

namespace Sys2Proof.Machine

/-- A flag that is 0 or 1. -/
def flagByte (c : Bool) : Byte := if c then 1 else 0

/-- 8XY4: 1 when the exact sum is at least 256 (41_alu.md R127). -/
def carryFlag (a b : Byte) : Byte := flagByte (decide (a.toNat + b.toNat ≥ 256))

/-- 8XY5: 1 when V[X] ≥ V[Y], no borrow (41_alu.md R128). -/
def noBorrowFlag (a b : Byte) : Byte := flagByte (decide (a.toNat ≥ b.toNat))

/-- 8XY7: 1 when the exact difference V[Y] − V[X] is greater than zero (41_alu.md R130, the spec's decision D7, log 11). -/
def reverseSubFlag (a b : Byte) : Byte := flagByte (decide ((b.toNat : Int) - (a.toNat : Int) > 0))

/-- 8XY6 and 8XYE: the low three bits of the old V[X] (41_alu.md R129, R131). -/
def shiftFlag (a : Byte) : Byte := a &&& 0x07

/-- DXYN: 1 when some drawn pixel was already 1 (43_display.md R171). -/
def collisionFlag (hit : Bool) : Byte := flagByte hit

/-- VF is written first and V[X] second, so with X = F the result is what stays (41_alu.md R120, the spec's decision
D6, log 11). -/
def State.setFlagThenReg (s : State) (flag : Byte) (x : Reg) (result : Byte) : State :=
  (s.setReg vf flag).setReg x result

end Sys2Proof.Machine
end

