-- ==== Sys2Proof/Machine/Alu.lean ====
section
/-! DEFINITION. Register and ALU instructions (41_alu.md). Operands are those of the state the instruction starts in,
results are taken mod 2^8 (R120). -/

namespace Sys2Proof.Machine

/-- R121 -/
def execLdByte (x : Reg) (nn : Byte) (s : State) : Host.Outcome State Fault Refusal :=
  .next (s.setReg x nn).advance

/-- R122: no flag. -/
def execAddByte (x : Reg) (nn : Byte) (s : State) : Host.Outcome State Fault Refusal :=
  .next (s.setReg x (s.reg x + nn)).advance

/-- R123 -/
def execLdReg (x y : Reg) (s : State) : Host.Outcome State Fault Refusal :=
  .next (s.setReg x (s.reg y)).advance

/-- R124: no flag. -/
def execOrReg (x y : Reg) (s : State) : Host.Outcome State Fault Refusal :=
  .next (s.setReg x (s.reg x ||| s.reg y)).advance

/-- R125: no flag. -/
def execAndReg (x y : Reg) (s : State) : Host.Outcome State Fault Refusal :=
  .next (s.setReg x (s.reg x &&& s.reg y)).advance

/-- R126: no flag. -/
def execXorReg (x y : Reg) (s : State) : Host.Outcome State Fault Refusal :=
  .next (s.setReg x (s.reg x ^^^ s.reg y)).advance

/-- R127 -/
def execAddReg (x y : Reg) (s : State) : Host.Outcome State Fault Refusal :=
  .next (s.setFlagThenReg (carryFlag (s.reg x) (s.reg y)) x (s.reg x + s.reg y)).advance

/-- R128 -/
def execSub (x y : Reg) (s : State) : Host.Outcome State Fault Refusal :=
  .next (s.setFlagThenReg (noBorrowFlag (s.reg x) (s.reg y)) x (s.reg x - s.reg y)).advance

/-- R129: V[Y] is not read. -/
def execShr (x _y : Reg) (s : State) : Host.Outcome State Fault Refusal :=
  .next (s.setFlagThenReg (shiftFlag (s.reg x)) x (s.reg x >>> 1)).advance

/-- R130 -/
def execSubn (x y : Reg) (s : State) : Host.Outcome State Fault Refusal :=
  .next (s.setFlagThenReg (reverseSubFlag (s.reg x) (s.reg y)) x (s.reg y - s.reg x)).advance

/-- R131: V[Y] is not read. -/
def execShl (x _y : Reg) (s : State) : Host.Outcome State Fault Refusal :=
  .next (s.setFlagThenReg (shiftFlag (s.reg x)) x (s.reg x <<< 1)).advance

/-- R132 with the byte RND given: V[X] <- RND & NN. -/
def State.randomInto (s : State) (rnd : Byte) (x : Reg) (nn : Byte) : State :=
  (s.setReg x (rnd &&& nn)).advance

/-- R132: RND is the next free byte, and the draw is counted (log 4). -/
def execRnd (x : Reg) (nn : Byte) (s : State) : Host.Outcome State Fault Refusal :=
  .next ((s.randomInto (Config.randomByte s.draws) x nn).setDraws (s.draws + 1))

end Sys2Proof.Machine
end

