-- ==== Sys2Proof/Machine/Draw.lean ====
section
/-! DEFINITION. Display instructions (43_display.md). -/

namespace Sys2Proof.Machine

/-- R170: every cell 0, no flag. -/
def execCls (s : State) : Host.Outcome State Fault Refusal :=
  .next (s.setDisp blankDisplay).advance

/-- The sprite engine's result for the coordinate registers x, y and n rows: V[X] and V[Y] are read before VF is
cleared (R171, the spec's decision D8, log 11). -/
def State.drawn (s : State) (x y : Reg) (n : Nat) : Plot :=
  Plot.sprite s.mem (s.dataAddr 0) (s.reg x).toNat (s.reg y).toNat n (s.disp, false)

/-- R171 -/
def execDrw (x y : Reg) (n : Nat) (s : State) : Host.Outcome State Fault Refusal :=
  .next ((s.setDisp (s.drawn x y n).1).setReg vf (collisionFlag (s.drawn x y n).2)).advance

end Sys2Proof.Machine
end

