-- ==== Sys2Proof/Machine/Flow.lean ====
section
/-! DEFINITION. Control flow (40_flow.md). -/

namespace Sys2Proof.Machine

/-- R101: SP <- (old(SP) − 1) mod 16, PC <- stack[SP] + 2; in strict mode an empty stack is an error (R204, log 16). -/
def execRet (s : State) : Host.Outcome State Fault Refusal :=
  if s.cfg.strict = true ∧ s.sp = 0 then .next (s.raise .stackUnderflow)
  else .next ((s.setSp (BitVec.ofNat 16 (popSlot s.sp))).setPc (s.stack[popSlot s.sp] + 2))

/-- R102: PC <- NNN. -/
def execJp (nnn : Addr) (s : State) : Host.Outcome State Fault Refusal :=
  .next (s.setPc (extAddr nnn))

/-- R103: push the call-site PC, then PC <- NNN; in strict mode a full stack is an error (R203, log 16). -/
def execCall (nnn : Addr) (s : State) : Host.Outcome State Fault Refusal :=
  if s.cfg.strict = true ∧ s.sp.toNat ≥ 16 then .next (s.raise .stackOverflow)
  else .next ((s.push s.pc).setPc (extAddr nnn))

/-- R104: skip when V[X] = NN. -/
def execSeByte (x : Reg) (nn : Byte) (s : State) : Host.Outcome State Fault Refusal :=
  .next (s.skipIf (s.reg x == nn))

/-- R105: skip when V[X] ≠ NN. -/
def execSneByte (x : Reg) (nn : Byte) (s : State) : Host.Outcome State Fault Refusal :=
  .next (s.skipIf (s.reg x != nn))

/-- R106: skip when V[X] = V[Y]. -/
def execSeReg (x y : Reg) (s : State) : Host.Outcome State Fault Refusal :=
  .next (s.skipIf (s.reg x == s.reg y))

/-- R107: skip when V[X] ≠ V[Y]. -/
def execSneReg (x y : Reg) (s : State) : Host.Outcome State Fault Refusal :=
  .next (s.skipIf (s.reg x != s.reg y))

/-- R108: PC <- NNN + V0 + 2. -/
def execJpV0 (nnn : Addr) (s : State) : Host.Outcome State Fault Refusal :=
  .next (s.setPc (extAddr nnn + extByte (s.reg 0) + 2))

end Sys2Proof.Machine
end

