-- ==== Sys2Proof/Machine/IndexMem.lean ====
section
/-! DEFINITION. Index register and memory instructions (42_index_memory.md). I is not changed by FX33, FX55 and FX65
(R153, R154, log 17). -/

namespace Sys2Proof.Machine

/-- R150 -/
def execLdI (nnn : Addr) (s : State) : Host.Outcome State Fault Refusal :=
  .next (s.setI (extAddr nnn)).advance

/-- R151: mod 2^16, no flag. -/
def execAddI (x : Reg) (s : State) : Host.Outcome State Fault Refusal :=
  .next (s.setI (s.i + extByte (s.reg x))).advance

/-- R152: V[X] × 5, at most 1275. -/
def execLdF (x : Reg) (s : State) : Host.Outcome State Fault Refusal :=
  .next (s.setI (extByte (s.reg x) * 5)).advance

/-- The decimal digits of a byte: hundreds, tens, units (R153). -/
def bcdDigits (b : Byte) : List Byte :=
  [BitVec.ofNat 8 (b.toNat / 100), BitVec.ofNat 8 (b.toNat / 10 % 10), BitVec.ofNat 8 (b.toNat % 10)]

/-- R153 -/
def execLdB (x : Reg) (s : State) : Host.Outcome State Fault Refusal :=
  .next (s.memWrite (s.dataAddr 0) (bcdDigits (s.reg x))).advance

/-- R155: V0..V[X] to I, I+1, … -/
def execLdMemVx (x : Reg) (s : State) : Host.Outcome State Fault Refusal :=
  .next (s.memWrite (s.dataAddr 0) (s.regsUpTo x)).advance

/-- The register file after V[k] <- MemRead(I + k, 1) for k = 0 .. x (R156). -/
def State.loadRegs (s : State) (x : Reg) : Vector Byte 16 :=
  Vector.ofFn fun k : Fin 16 => if k ≤ x then s.memRead (s.dataAddr k) else s.v[k]

/-- R156 -/
def execLdVxMem (x : Reg) (s : State) : Host.Outcome State Fault Refusal :=
  .next (s.setV (s.loadRegs x)).advance

end Sys2Proof.Machine
end

