-- ==== Sys2Proof/Machine/Step.lean ====
section
/-! DEFINITION. One step (30_encoding.md R80), and storing a word where the next step fetches. -/

namespace Sys2Proof.Machine

/-- R80: fetch, latch IR, decode, execute or treat the word as unmatched, then the tick unless an error is reported. -/
def step (s : State) : Host.Outcome State Fault Refusal :=
  match decodeWord s.fetchWord with
  | .error _ => .next (s.latch s.fetchWord).unmatched.endStep
  | .ok i =>
    match exec i (s.latch s.fetchWord) with
    | .next t => .next t.endStep
    | .fault f => .fault f
    | .refused r => .refused r

/-- `s` with the table word `w` at PC and PC + 1, its high byte first (R62). It stands for the host's load of a program
(log 7). -/
def State.withFetchWord (s : State) (nbits w : Nat) : State :=
  s.memWrite s.pc.toNat [highByte (tableWord nbits w), lowByte (tableWord nbits w)]

end Sys2Proof.Machine
end

