-- ==== Sys2Proof/Machine/Interface.lean ====
section
/-! DEFINITION. The host's operations on the core, each one atomic transition between steps (60_exceptions.md R215 to
R219, 70_reset_and_hazards.md R230 to R232, 20_memory.md R68). -/

namespace Sys2Proof.Machine

/-- `reset()` (R230). IR and mem[0x050..0xFFF] are not written, the parameters stay (log 19). -/
def State.hostReset (s : State) : State where
  v := Vector.replicate 16 0
  i := 0
  pc := 0x0200
  sp := 0
  stack := Vector.replicate 16 0
  dt := s.cfg.dtInit
  st := s.cfg.stInit
  keys := Vector.replicate 16 false
  disp := blankDisplay
  mem := Memory.writeBytes s.mem 0 s.cfg.fontBytes
  ir := s.ir
  reply := .ok
  draws := s.draws
  cfg := s.cfg

/-- PROG_ORIGIN (00_scope.md R5). -/
def progOrigin : Nat := 0x200

/-- MAX_IMAGE: 4096 − 0x200 bytes (00_scope.md R5). -/
def maxImage : Nat := 3584

/-- `load(image)` (R231): the size check first, then the reset, then the copy (log 19). -/
def State.load (s : State) (image : List Byte) : State :=
  if image.length > maxImage then s.setReply .imageTooLarge
  else s.hostReset.memWrite progOrigin image

/-- `set_key(index, pressed)` (R216, log 20). -/
def State.setKey (s : State) (index : Nat) (pressed : Bool) : State :=
  if h : index < 16 then (s.setKeys (s.keys.set index pressed h)).setReply .ok
  else s.setReply .invalidKeyIndex

/-- The framebuffer read port (R217): 2048 bytes, each 0 or 1, cell (x, y) at index y × 64 + x (the spec's decision
D25, log 18). -/
def State.framebuffer (s : State) : Vector Byte 2048 :=
  Vector.ofFn fun k : Fin 2048 => if Display.cell s.disp (k.val % 64) (k.val / 64) then 1 else 0

/-- What the snapshot read port shows (R218, with the spec's decision D28, log 18). -/
structure Snapshot where
  v : Vector Byte 16
  pc : Word
  i : Word
  sp : Word
  opcode : Word
  dt : Byte
  st : Byte
  stack : Vector Word 16
  keys : Vector Bool 16
  mem : Vector Byte 4096
  deriving DecidableEq

/-- The snapshot read port (R218). -/
def State.snapshot (s : State) : Snapshot where
  v := s.v
  pc := s.pc
  i := s.i
  sp := s.sp
  opcode := s.ir
  dt := s.dt
  st := s.st
  stack := s.stack
  keys := s.keys
  mem := Vector.ofFn fun a : Fin 4096 => s.memRead a

/-- The numeric code of a reply (R201, the spec's decision D35, log 18). -/
def Reply.code : Reply → Nat
  | .ok => 0
  | .imageTooLarge => 1
  | .invalidKeyIndex => 2
  | .unknownInstruction => 3
  | .stackOverflow => 4
  | .stackUnderflow => 5

/-- The operations of R219. Reading a port changes nothing. -/
inductive HostOp where
  | reset
  | load (image : List Byte)
  | step
  | setKey (index : Nat) (pressed : Bool)
  | readDisplay
  | readSnapshot
  deriving DecidableEq

/-- The core's transition for one operation (R219). -/
def HostOp.apply (op : HostOp) (s : State) : Host.Outcome State Fault Refusal :=
  match op with
  | .reset => .next s.hostReset
  | .load image => .next (s.load image)
  | .step => Sys2Proof.Machine.step s
  | .setKey index pressed => .next (s.setKey index pressed)
  | .readDisplay => .next s
  | .readSnapshot => .next s

/-- The host serializes every operation (R219, R67): one after another. -/
def HostOp.applyAll : List HostOp → State → Host.Outcome State Fault Refusal
  | [], s => .next s
  | op :: ops, s =>
    match op.apply s with
    | .next t => HostOp.applyAll ops t
    | .fault f => .fault f
    | .refused r => .refused r

end Sys2Proof.Machine
end

