-- ==== Sys2Proof/Safety.lean ====
section
/-! DEFINITION. The words that claims are stated in: the pieces of state and what leaves them alone, the invariant of a
state, and a step that reports no error. -/

namespace Sys2Proof.Machine

/-- The pieces of state, by name. -/
inductive Part where
  | v | i | pc | sp | stack | dt | st | keys | disp | mem | ir | reply | draws | cfg
  deriving DecidableEq, Repr

/-- The two states agree on the piece: for memory, every byte reads the same. -/
def Part.Same (s t : State) : Part → Prop
  | .v => t.v = s.v
  | .i => t.i = s.i
  | .pc => t.pc = s.pc
  | .sp => t.sp = s.sp
  | .stack => t.stack = s.stack
  | .dt => t.dt = s.dt
  | .st => t.st = s.st
  | .keys => t.keys = s.keys
  | .disp => t.disp = s.disp
  | .mem => ∀ a, t.memRead a = s.memRead a
  | .ir => t.ir = s.ir
  | .reply => t.reply = s.reply
  | .draws => t.draws = s.draws
  | .cfg => t.cfg = s.cfg

/-- Every piece but those listed is the same in `t` as in `s` (the frame rule, 00_scope.md R9). -/
def OnlyChanges (changed : List Part) (s t : State) : Prop :=
  ∀ p, p ∉ changed → Part.Same s t p

/-- Every general register but those listed holds in `t` what it holds in `s`. -/
def RegsKeptExcept (changed : List Reg) (s t : State) : Prop :=
  ∀ r, r ∉ changed → t.reg r = s.reg r

/-- The invariant of a state: memory is in its canonical form, and in strict mode SP never exceeds 16 (R203, R37). -/
def State.Inv (s : State) : Prop :=
  Memory.wf s.mem = true ∧ (s.cfg.strict = true → s.sp.toNat ≤ 16)

/-- A step that answers a next state and reports no error to the host. -/
def State.StepsOk (s : State) : Prop := ∃ t, step s = .next t ∧ t.reply = .ok

/-- The instruction word that the next step executes, decoded. -/
def State.nextInstr (s : State) : Option Instr := (decodeWord s.fetchWord).toOption

/-- Sprite byte r at I + r has the bit for column x set, when the sprite stands at (x0, y0) with n rows: byte r is row
y0 + r, bit 7 − c is column x0 + c (43_display.md R171, R172). -/
def SpriteCovers (s : State) (x0 y0 n x y : Nat) : Prop :=
  ∃ r c, r < n ∧ c < 8 ∧ x = x0 + c ∧ y = y0 + r ∧ (s.memRead (s.i.toNat + r)).getLsbD (7 - c) = true

/-- What reset leaves in each piece of state (10_state.md R45), DT, ST and the glyph table being those of the machine's
own parameters. -/
def State.HoldsResetValues (t : State) : Prop :=
  t.pc = 0x0200 ∧ t.i = 0 ∧ t.sp = 0 ∧ (∀ r, t.reg r = 0) ∧ (∀ k : Fin 16, t.stack[k] = 0) ∧
  (∀ k, t.keyDown k = false) ∧ (∀ x y, x < 64 → y < 32 → Display.cell t.disp x y = false) ∧
  t.dt = t.cfg.dtInit ∧ t.st = t.cfg.stInit ∧
  (∀ (g : Fin 16) (k : Fin 5), t.memRead (g.val * 5 + k.val) = t.cfg.font[g][k])

/-- A row of the opcode table: its mnemonic, the fixed bits and which bits are fixed (spec/opcode_table.json). -/
structure OpcodeRow where
  mnemonic : String
  fixed : Word
  mask : Word
  deriving DecidableEq, Repr

/-- The word has the row's fixed bits. -/
def OpcodeRow.fits (r : OpcodeRow) (w : Word) : Bool := w &&& r.mask == r.fixed

/-- spec/opcode_table.json, its 34 rows in order with their "match" and "mask". -/
def opcodeTable : List OpcodeRow := [
  ⟨"CLS", 0x00E0, 0xF0FF⟩, ⟨"RET", 0x00EE, 0xF0FF⟩, ⟨"JP_addr", 0x1000, 0xF000⟩, ⟨"CALL_addr", 0x2000, 0xF000⟩,
  ⟨"SE_Vx__byte", 0x3000, 0xF000⟩, ⟨"SNE_Vx__byte", 0x4000, 0xF000⟩, ⟨"SE_Vx__Vy", 0x5000, 0xF000⟩,
  ⟨"LD_Vx__byte", 0x6000, 0xF000⟩, ⟨"ADD_Vx__byte", 0x7000, 0xF000⟩] ++ [
  ⟨"LD_Vx__Vy", 0x8000, 0xF00F⟩, ⟨"OR_Vx__Vy", 0x8001, 0xF00F⟩, ⟨"AND_Vx__Vy", 0x8002, 0xF00F⟩,
  ⟨"XOR_Vx__Vy", 0x8003, 0xF00F⟩, ⟨"ADD_Vx__Vy", 0x8004, 0xF00F⟩, ⟨"SUB_Vx__Vy", 0x8005, 0xF00F⟩,
  ⟨"SHR_Vx____Vy", 0x8006, 0xF00F⟩, ⟨"SUBN_Vx__Vy", 0x8007, 0xF00F⟩, ⟨"SHL_Vx____Vy", 0x800E, 0xF00F⟩] ++ [
  ⟨"SNE_Vx__Vy", 0x9000, 0xF000⟩, ⟨"LD_I__addr", 0xA000, 0xF000⟩, ⟨"JP_V0__addr", 0xB000, 0xF000⟩,
  ⟨"RND_Vx__byte", 0xC000, 0xF000⟩, ⟨"DRW_Vx__Vy__nibble", 0xD000, 0xF000⟩, ⟨"SKP_Vx", 0xE09E, 0xF0FF⟩,
  ⟨"SKNP_Vx", 0xE0A1, 0xF0FF⟩, ⟨"LD_Vx__DT", 0xF007, 0xF0FF⟩, ⟨"LD_Vx__K", 0xF00A, 0xF0FF⟩] ++ [
  ⟨"LD_DT__Vx", 0xF015, 0xF0FF⟩, ⟨"LD_ST__Vx", 0xF018, 0xF0FF⟩, ⟨"ADD_I__Vx", 0xF01E, 0xF0FF⟩,
  ⟨"LD_F__Vx", 0xF029, 0xF0FF⟩, ⟨"LD_B__Vx", 0xF033, 0xF0FF⟩, ⟨"LD__I___Vx", 0xF055, 0xF0FF⟩,
  ⟨"LD_Vx___I", 0xF065, 0xF0FF⟩]

/-- The row of the opcode table that each constructor stands for. -/
def mnemonicOf : Instr → String
  | .cls => "CLS"
  | .ret => "RET"
  | .jp _ => "JP_addr"
  | .call _ => "CALL_addr"
  | .seByte _ _ => "SE_Vx__byte"
  | .sneByte _ _ => "SNE_Vx__byte"
  | .seReg _ _ => "SE_Vx__Vy"
  | .ldByte _ _ => "LD_Vx__byte"
  | .addByte _ _ => "ADD_Vx__byte"
  | .ldReg _ _ => "LD_Vx__Vy"
  | .orReg _ _ => "OR_Vx__Vy"
  | .andReg _ _ => "AND_Vx__Vy"
  | .xorReg _ _ => "XOR_Vx__Vy"
  | .addReg _ _ => "ADD_Vx__Vy"
  | .sub _ _ => "SUB_Vx__Vy"
  | .shr _ _ => "SHR_Vx____Vy"
  | .subn _ _ => "SUBN_Vx__Vy"
  | .shl _ _ => "SHL_Vx____Vy"
  | .sneReg _ _ => "SNE_Vx__Vy"
  | .ldI _ => "LD_I__addr"
  | .jpV0 _ => "JP_V0__addr"
  | .rnd _ _ => "RND_Vx__byte"
  | .drw _ _ _ => "DRW_Vx__Vy__nibble"
  | .skp _ => "SKP_Vx"
  | .sknp _ => "SKNP_Vx"
  | .ldVxDt _ => "LD_Vx__DT"
  | .ldVxK _ => "LD_Vx__K"
  | .ldDtVx _ => "LD_DT__Vx"
  | .ldStVx _ => "LD_ST__Vx"
  | .addI _ => "ADD_I__Vx"
  | .ldF _ => "LD_F__Vx"
  | .ldB _ => "LD_B__Vx"
  | .ldMemVx _ => "LD__I___Vx"
  | .ldVxMem _ => "LD_Vx___I"

/-- The bits of an instruction's word that its decoding depends on: families 0, 5 and 9 ignore four bits (R84, R85). -/
def usedBits : Instr → Word
  | .cls => 0xF0FF
  | .ret => 0xF0FF
  | .seReg _ _ => 0xFFF0
  | .sneReg _ _ => 0xFFF0
  | _ => 0xFFFF

end Sys2Proof.Machine
end

