-- ==== Sys2Proof/Certificates/Slice0/Obligations.lean ====
section
/-! DEFINITION. The statements for the provers, each with the rule of the spec it formalises. A statement that rests on
a decision the spec marks as its own (92_eei_decisions.md D<n>) or on a choice of the model's (a log entry) says so. -/

open Sys2Proof Sys2Proof.Machine

/-! ### Reset, load and the host's ports -/

/-- R45: what reset leaves. "Clear" as zero is D31, the parameters are D14 and D15. The statement names DT_INIT,
ST_INIT and FONT, and rests on no value of them. -/
def Obligations.ResetStateHoldsResetValues : Prop :=
  State.reset.HoldsResetValues ∧ State.reset.reply = .ok

/-- The invariant holds right after reset (the model's canonical memory form, log 3, and the strict bound of R203). -/
def Obligations.ResetStateMeetsInvariant : Prop := State.reset.Inv

/-- R230 from every state: the values of R45, with the rest of memory, IR (D17, D18), the parameters and the count of
draws kept. -/
def Obligations.HostResetLeavesResetValuesFromAnyState : Prop :=
  ∀ s : State, Memory.wf s.mem = true →
    s.hostReset.HoldsResetValues ∧ s.hostReset.reply = .ok ∧
    (∀ a, 80 ≤ a % 4096 → s.hostReset.memRead a = s.memRead a) ∧
    s.hostReset.ir = s.ir ∧ s.hostReset.cfg = s.cfg ∧ s.hostReset.draws = s.draws

/-- R231: a load of at most 3584 bytes resets, then copies; memory that neither the glyph table nor the image covers
is kept (D17). -/
def Obligations.LoadResetsThenCopiesImage : Prop :=
  ∀ (s : State) (image : List Byte), Memory.wf s.mem = true → image.length ≤ 3584 →
    (s.load image).HoldsResetValues ∧ (s.load image).reply = .ok ∧
    (∀ j, (h : j < image.length) → (s.load image).memRead (0x200 + j) = image[j]) ∧
    (∀ a, 80 ≤ a % 4096 → (a % 4096 < 0x200 ∨ 0x200 + image.length ≤ a % 4096) →
      (s.load image).memRead a = s.memRead a) ∧
    (s.load image).ir = s.ir ∧ (s.load image).cfg = s.cfg ∧ (s.load image).draws = s.draws

/-- R231, R205: a load of more than 3584 bytes reports ImageTooLarge and changes nothing (the check comes before the
reset: D29). -/
def Obligations.OversizedLoadChangesNothing : Prop :=
  ∀ (s : State) (image : List Byte), 3584 < image.length →
    (s.load image).reply = .imageTooLarge ∧ OnlyChanges [.reply] s (s.load image)

/-- R216: set_key. -/
def Obligations.SetKeyWritesOneLatchEntry : Prop :=
  ∀ (s : State) (index : Nat) (pressed : Bool),
    ((h : index < 16) →
      (s.setKey index pressed).reply = .ok ∧ (s.setKey index pressed).keyDown ⟨index, h⟩ = pressed ∧
      (∀ k : Fin 16, k.val ≠ index → (s.setKey index pressed).keyDown k = s.keyDown k) ∧
      OnlyChanges [.keys, .reply] s (s.setKey index pressed)) ∧
    (16 ≤ index →
      (s.setKey index pressed).reply = .invalidKeyIndex ∧ OnlyChanges [.reply] s (s.setKey index pressed))

/-- R217, R218: the read ports. The linear index y × 64 + x is D25, memory in the snapshot is D28. -/
def Obligations.ReadPortsShowTheState : Prop :=
  ∀ s : State,
    (∀ x y, (hx : x < 64) → (hy : y < 32) →
      s.framebuffer[y * 64 + x] = if Display.cell s.disp x y then 1 else 0) ∧
    s.snapshot.v = s.v ∧ s.snapshot.pc = s.pc ∧ s.snapshot.i = s.i ∧ s.snapshot.sp = s.sp ∧ s.snapshot.opcode = s.ir ∧
    s.snapshot.dt = s.dt ∧ s.snapshot.st = s.st ∧ s.snapshot.stack = s.stack ∧ s.snapshot.keys = s.keys ∧
    (∀ a, (h : a < 4096) → s.snapshot.mem[a] = s.memRead a) ∧
    HostOp.readDisplay.apply s = .next s ∧ HostOp.readSnapshot.apply s = .next s

/-! ### Memory and the invariant -/

/-- The canonical form (log 3) is canonical: memories that read the same at every address are the same data. -/
def Obligations.MemoriesThatReadAlikeAreEqual : Prop :=
  ∀ m m' : Memory, Memory.wf m = true → Memory.wf m' = true → (∀ a, Memory.read m a = Memory.read m' a) → m = m'

/-- Every step keeps the invariant, from every state that meets it. -/
def Obligations.EveryStepKeepsInvariant : Prop :=
  ∀ s t : State, s.Inv → step s = .next t → t.Inv

/-- So does every sequence of host operations. -/
def Obligations.HostOperationsKeepInvariant : Prop :=
  ∀ (ops : List HostOp) (s t : State), s.Inv → HostOp.applyAll ops s = .next t → t.Inv

/-- No operation stops the machine, in any state: no access faults (R66), no traps (R200), and errors are replies. -/
def Obligations.EveryOperationAnswersNextState : Prop :=
  ∀ (op : HostOp) (s : State), ∃ t, op.apply s = .next t

/-- R6: each parameter "is fixed for the whole lifetime of one machine". -/
def Obligations.ParametersNeverChange : Prop :=
  ∀ (ops : List HostOp) (s t : State), HostOp.applyAll ops s = .next t → t.cfg = s.cfg

/-! ### Encoding -/

/-- Decoding the word of a well-formed instruction gives it back, every operand at every value. -/
def Obligations.DecodeOfEncodeIsIdentity : Prop :=
  ∀ i : Instr, i.wellFormed = true → decodeWord (encode i) = .ok i

/-- What decodes is well-formed, and encodes to the word itself but for the bits the decoder ignores, which are those
of R84 (D3) and R85 (D4) and no others. -/
def Obligations.EncodeOfDecodedKeepsUsedBits : Prop :=
  ∀ (w : Word) (i : Instr), decodeWord w = .ok i → i.wellFormed = true ∧ encode i = w &&& usedBits i

/-- R83, R88: exactly one row of the opcode table fits a word that decodes, and it is the instruction's; no row fits a
word that does not. The numeric values are the spec's from general knowledge (D2). -/
def Obligations.DecodeFollowsOpcodeTable : Prop :=
  ∀ w : Word, (opcodeTable.filter (fun r => r.fits w)).map OpcodeRow.mnemonic =
    match decodeWord w with
    | .ok i => [mnemonicOf i]
    | .error _ => []

/-- R86: the unmatched words, by their four classes (D2, D3, D4). -/
def Obligations.UnmatchedWordsAreTheListedOnes : Prop :=
  ∀ w : Word,
    (decodeWord w = .error .unmatchedFamily0 ↔ w.toNat / 4096 = 0 ∧ w.toNat % 256 ≠ 0xE0 ∧ w.toNat % 256 ≠ 0xEE) ∧
    (decodeWord w = .error .unmatchedFamily8 ↔ w.toNat / 4096 = 8 ∧ w.toNat % 16 ∈ [8, 9, 0xA, 0xB, 0xC, 0xD, 0xF]) ∧
    (decodeWord w = .error .unmatchedFamilyE ↔ w.toNat / 4096 = 0xE ∧ w.toNat % 256 ≠ 0x9E ∧ w.toNat % 256 ≠ 0xA1) ∧
    (decodeWord w = .error .unmatchedFamilyF ↔
      w.toNat / 4096 = 0xF ∧ w.toNat % 256 ∉ [0x07, 0x0A, 0x15, 0x18, 0x1E, 0x29, 0x33, 0x55, 0x65]) ∧
    decodeWord w ≠ .error .truncated

/-- One word of each format of R81, written out from R83. -/
def Obligations.SampleWordsDecode : Prop :=
  decodeWord 0b0000_0000_1110_1110#16 = .ok .ret ∧
  decodeWord 0b0010_0011_0000_0000#16 = .ok (.call 0x300) ∧
  decodeWord 0b0111_0001_0010_0000#16 = .ok (.addByte 1 0x20) ∧
  decodeWord 0b1000_0001_0010_0111#16 = .ok (.subn 1 2) ∧
  decodeWord 0b1101_0000_0001_1111#16 = .ok (.drw 0 1 15) ∧
  decodeWord 0b1110_0110_1010_0001#16 = .ok (.sknp 6) ∧
  decodeWord 0b1111_0011_0011_0011#16 = .ok (.ldB 3)

/-! ### The step -/

/-- R80: when the bytes at PC decode to an instruction, the step runs it on the state with IR holding the word and the
reply "OK", then ticks both timers unless the instruction reported an error. -/
def Obligations.StepRunsDecodedInstruction : Prop :=
  ∀ (s : State) (i : Instr),
    decode [s.memRead s.pc.toNat, s.memRead (s.pc.toNat + 1)] = .ok (i, []) → i.wellFormed = true →
    ∃ u, exec i { s with ir := s.memRead s.pc.toNat ++ s.memRead (s.pc.toNat + 1), reply := .ok } = .next u ∧
      step s = .next (if u.reply = .ok then
        { u with dt := BitVec.ofNat 8 (u.dt.toNat - 1), st := BitVec.ofNat 8 (u.st.toNat - 1) } else u)

/-- R62, R35: after a step IR holds the big-endian word at PC and PC + 1 of the state the step began in (addresses mod
4096: D10). -/
def Obligations.StepLatchesBigEndianWord : Prop :=
  ∀ s t : State, step s = .next t →
    t.ir.toNat = 256 * (s.memRead s.pc.toNat).toNat + (s.memRead (s.pc.toNat + 1)).toNat

/-- Storing a word with `withFetchWord` changes memory only, and the next fetch reads it: a write is seen by the next
fetch (R70), also across 0xFFF (D10). -/
def Obligations.StoredFetchWordIsFetched : Prop :=
  ∀ (s : State) (w : Word), Memory.wf s.mem = true →
    (s.withFetchWord 16 w.toNat).fetchWord = w ∧ OnlyChanges [.mem] s (s.withFetchWord 16 w.toNat)

/-- R86: in lenient mode an unmatched word leaves PC where it is; only IR changes, and the timers tick (D5). -/
def Obligations.LenientUnmatchedWordFreezesPc : Prop :=
  ∀ (s : State) (e : DecodeError), decodeWord s.fetchWord = .error e → s.cfg.strict = false →
    ∃ t, step s = .next t ∧ t.ir = s.fetchWord ∧ t.reply = .ok ∧
      t.dt.toNat = s.dt.toNat - 1 ∧ t.st.toNat = s.st.toNat - 1 ∧ OnlyChanges [.ir, .reply, .dt, .st] s t

/-- R202: in strict mode the step reports UnknownInstruction; only IR changes, with no tick (D20). -/
def Obligations.StrictUnmatchedWordIsReported : Prop :=
  ∀ (s : State) (e : DecodeError), decodeWord s.fetchWord = .error e → s.cfg.strict = true →
    ∃ t, step s = .next t ∧ t.ir = s.fetchWord ∧ t.reply = .unknownInstruction ∧ OnlyChanges [.ir, .reply] s t

/-- R201 to R206: a step reports an error only in strict mode and only in the three cases of R201, and then nothing but
IR changes (the strict mode's form is D20; the reply is the value returned to the host). -/
def Obligations.EveryStepErrorIsPrecise : Prop :=
  ∀ s t : State, step s = .next t → t.reply ≠ .ok →
    s.cfg.strict = true ∧ t.ir = s.fetchWord ∧ OnlyChanges [.ir, .reply] s t ∧
    ((t.reply = .unknownInstruction ∧ s.nextInstr = none) ∨
     (t.reply = .stackOverflow ∧ (∃ nnn, s.nextInstr = some (.call nnn)) ∧ 16 ≤ s.sp.toNat) ∨
     (t.reply = .stackUnderflow ∧ s.nextInstr = some .ret ∧ s.sp = 0))

/-- R210: at the end of every step that reports no error each timer is one less, or stays 0, after the instruction has
run (so a value FX15 or FX18 wrote is decremented at once). That waits and unmatched words tick is D5. -/
def Obligations.TimersTickOncePerStep : Prop :=
  ∀ s t : State, step s = .next t → t.reply = .ok →
    t.dt.toNat = (match s.nextInstr with
      | some (.ldDtVx x) => (s.reg x).toNat
      | _ => s.dt.toNat) - 1 ∧
    t.st.toNat = (match s.nextInstr with
      | some (.ldStVx x) => (s.reg x).toNat
      | _ => s.st.toNat) - 1

/-- R242: after k error-free steps of which none sets a timer, each timer is k less, and never below zero. That waits
and lenient unmatched words count among the steps is D5 (log 15). -/
def Obligations.TimersReachZeroAndStay : Prop :=
  ∀ (k : Nat) (s t : State), HostOp.applyAll (List.replicate k .step) s = .next t →
    (∀ j < k, ∀ u, HostOp.applyAll (List.replicate j .step) s = .next u →
      u.StepsOk ∧ ∀ x, u.nextInstr ≠ some (.ldDtVx x) ∧ u.nextInstr ≠ some (.ldStVx x)) →
    t.dt.toNat = s.dt.toNat - k ∧ t.st.toNat = s.st.toNat - k

/-! ### What each piece of state is written by, over all instructions -/

/-- The table of R24: the new PC in every case. Decisions it rests on: PC is not masked to 12 bits (D11, log 10), RET
pops slot (SP + 15) mod 16 (D12, log 13), the key of SKP and SKNP is the low nibble of V[X] (D13) and FX0A advances PC
once (D22; both log 14), a step that reports an error keeps PC (D20, log 16). -/
def Obligations.EveryStepUpdatesPcByTable : Prop :=
  ∀ s t : State, step s = .next t →
    (t.reply ≠ .ok → t.pc = s.pc) ∧
    (t.reply = .ok → t.pc = match s.nextInstr with
      | none => s.pc
      | some (.jp nnn) => BitVec.ofNat 16 nnn.toNat
      | some (.call nnn) => BitVec.ofNat 16 nnn.toNat
      | some (.jpV0 nnn) => BitVec.ofNat 16 (nnn.toNat + (s.reg 0).toNat + 2)
      | some .ret => BitVec.ofNat 16 ((s.stack[(s.sp.toNat + 15) % 16]).toNat + 2)
      | some (.seByte x nn) => if s.reg x = nn then s.pc + 4 else s.pc + 2
      | some (.sneByte x nn) => if s.reg x ≠ nn then s.pc + 4 else s.pc + 2
      | some (.seReg x y) => if s.reg x = s.reg y then s.pc + 4 else s.pc + 2
      | some (.sneReg x y) => if s.reg x ≠ s.reg y then s.pc + 4 else s.pc + 2
      | some (.skp x) => if s.keyDown (keyIndex (s.reg x)) = true then s.pc + 4 else s.pc + 2
      | some (.sknp x) => if s.keyDown (keyIndex (s.reg x)) = false then s.pc + 4 else s.pc + 2
      | some (.ldVxK _) => if ∀ k, s.keyDown k = false then s.pc else s.pc + 2
      | some _ => s.pc + 2)

/-- The table of R22: the flag each instruction writes to VF, and that no other instruction writes VF except as its own
destination register. Decisions it rests on: SUBN compares the integer difference (D7) and DRW reads its coordinates
before VF is cleared (D8; both log 11), bit 7 of a sprite byte is leftmost (D9, log 12), sprite addresses wrap mod 4096
(D10, log 10). For X = F the flag-writing ones leave their result in VF (D6, log 11): AddWritesSumAndCarry,
SubtractionsWriteDifferenceAndFlag and ShiftsWriteThreeBitFlag say so. -/
def Obligations.VfWrittenOnlyByListedInstructions : Prop :=
  ∀ s t : State, step s = .next t → match s.nextInstr with
    | some (.addReg x y) => x ≠ 15 → t.reg 15 = if (s.reg x).toNat + (s.reg y).toNat ≥ 256 then 1 else 0
    | some (.sub x y) => x ≠ 15 → t.reg 15 = if (s.reg x).toNat ≥ (s.reg y).toNat then 1 else 0
    | some (.shr x _) => x ≠ 15 → t.reg 15 = s.reg x &&& 7
    | some (.shl x _) => x ≠ 15 → t.reg 15 = s.reg x &&& 7
    | some (.subn x y) => x ≠ 15 → t.reg 15 = if ((s.reg y).toNat : Int) - ((s.reg x).toNat : Int) > 0 then 1 else 0
    | some (.drw x y n) =>
      ((∃ px py, SpriteCovers s (s.reg x).toNat (s.reg y).toNat n px py ∧ Display.cell s.disp px py = true) →
        t.reg 15 = 1) ∧
      ((¬ ∃ px py, SpriteCovers s (s.reg x).toNat (s.reg y).toNat n px py ∧ Display.cell s.disp px py = true) →
        t.reg 15 = 0)
    | some (.ldByte x _) => x ≠ 15 → t.reg 15 = s.reg 15
    | some (.addByte x _) => x ≠ 15 → t.reg 15 = s.reg 15
    | some (.ldReg x _) => x ≠ 15 → t.reg 15 = s.reg 15
    | some (.orReg x _) => x ≠ 15 → t.reg 15 = s.reg 15
    | some (.andReg x _) => x ≠ 15 → t.reg 15 = s.reg 15
    | some (.xorReg x _) => x ≠ 15 → t.reg 15 = s.reg 15
    | some (.rnd x _) => x ≠ 15 → t.reg 15 = s.reg 15
    | some (.ldVxDt x) => x ≠ 15 → t.reg 15 = s.reg 15
    | some (.ldVxK x) => x ≠ 15 → t.reg 15 = s.reg 15
    | some (.ldVxMem x) => x ≠ 15 → t.reg 15 = s.reg 15
    | _ => t.reg 15 = s.reg 15

/-- R28: the instructions that write I, and what they write. That I + V[X] wraps mod 2^16 unmasked is D11 (log 10); that
FX33, FX55 and FX65 keep I is D21 (log 17). -/
def Obligations.IndexRegisterWrittenOnlyByThree : Prop :=
  ∀ s t : State, step s = .next t → t.i = match s.nextInstr with
    | some (.ldI nnn) => BitVec.ofNat 16 nnn.toNat
    | some (.addI x) => BitVec.ofNat 16 (s.i.toNat + (s.reg x).toNat)
    | some (.ldF x) => BitVec.ofNat 16 ((s.reg x).toNat * 5)
    | _ => s.i

/-- R29 to R31: the stack and SP change by CALL and RET alone: CALL writes the call-site PC at slot SP mod 16 and SP + 1
(D12), RET sets SP to (SP − 1) mod 16 and clears nothing (D33). -/
def Obligations.StackChangedOnlyByCallAndReturn : Prop :=
  ∀ s t : State, step s = .next t → t.reply = .ok → match s.nextInstr with
    | some (.call _) =>
      t.sp = s.sp + 1 ∧ t.stack[s.sp.toNat % 16] = s.pc ∧
      (∀ k : Fin 16, k.val ≠ s.sp.toNat % 16 → t.stack[k] = s.stack[k])
    | some .ret => t.sp.toNat = (s.sp.toNat + 15) % 16 ∧ t.stack = s.stack
    | _ => t.sp = s.sp ∧ t.stack = s.stack

/-- R34: in a step only CLS and DRW change the display: CLS clears every cell, DRW flips exactly the in-range cells its
sprite covers (bit order D9, coordinates read first D8), and reset clears it. -/
def Obligations.DisplayChangedOnlyByClsAndDrw : Prop :=
  (∀ s t : State, step s = .next t → match s.nextInstr with
    | some .cls => ∀ px py, px < 64 → py < 32 → Display.cell t.disp px py = false
    | some (.drw x y n) => ∀ px py, px < 64 → py < 32 →
      (SpriteCovers s (s.reg x).toNat (s.reg y).toNat n px py →
        Display.cell t.disp px py = !Display.cell s.disp px py) ∧
      (¬ SpriteCovers s (s.reg x).toNat (s.reg y).toNat n px py →
        Display.cell t.disp px py = Display.cell s.disp px py)
    | _ => t.disp = s.disp) ∧
  (∀ (s : State) (px py : Nat), px < 64 → py < 32 → Display.cell s.hostReset.disp px py = false)

/-- From R33, and R231 for load: the key latch changes only by set_key, reset and the reset of a load; no instruction
but EX9E, EXA1 and FX0A reads it, so a step of any other word does the same whatever the latch holds. That reset
releases every key is in HostResetLeavesResetValuesFromAnyState; what the three read is in KeySkipsFollowLatch and
KeyWaitTakesLowestKey. -/
def Obligations.KeyLatchIsHostWrittenAndReadByThree : Prop :=
  (∀ (op : HostOp) (s t : State), op.apply s = .next t → t.keys ≠ s.keys →
    (∃ k p, op = .setKey k p) ∨ op = .reset ∨ ∃ image, op = .load image) ∧
  (∀ (s t : State) (k : Vector Bool 16), step s = .next t →
    (∀ x, s.nextInstr ≠ some (.skp x) ∧ s.nextInstr ≠ some (.sknp x) ∧ s.nextInstr ≠ some (.ldVxK x)) →
    step (s.setKeys k) = .next (t.setKeys k))

/-- R32: ST "is read by no instruction": two states that differ in ST alone step to states that differ in ST alone. -/
def Obligations.SoundTimerIsReadByNoInstruction : Prop :=
  ∀ (s t : State) (b : Byte), step s = .next t → ∃ c, step (s.setSt b) = .next (t.setSt c)

/-- R60, R64: in a step only FX33 and FX55 write memory, FX33 at I .. I + 2 and FX55 at I .. I + X (mod 4096: D10). -/
def Obligations.MemoryWrittenOnlyByBcdAndDump : Prop :=
  ∀ (s t : State) (a : Nat), s.Inv → step s = .next t → t.memRead a ≠ s.memRead a →
    (∃ x k, s.nextInstr = some (.ldB x) ∧ k ≤ 2 ∧ a % 4096 = (s.i.toNat + k) % 4096) ∨
    (∃ x k, s.nextInstr = some (.ldMemVx x) ∧ k ≤ x.val ∧ a % 4096 = (s.i.toNat + k) % 4096)

/-! ### Instructions: result, frame, completion -/

/-- R101 (D20 and R204 for strict mode): RET. -/
def Obligations.ReturnPopsCallSitePlusTwo : Prop :=
  ∀ s : State,
    (¬ (s.cfg.strict = true ∧ s.sp = 0) → ∃ t, exec .ret s = .next t ∧
      t.sp.toNat = (s.sp.toNat + 15) % 16 ∧ t.pc = s.stack[(s.sp.toNat + 15) % 16] + 2 ∧ OnlyChanges [.sp, .pc] s t) ∧
    (s.cfg.strict = true → s.sp = 0 → ∃ t, exec .ret s = .next t ∧
      t.reply = .stackUnderflow ∧ OnlyChanges [.reply] s t)

/-- R103 (D12 for SP, D20 and R203 for strict mode): CALL addr. -/
def Obligations.CallPushesCallSite : Prop :=
  ∀ (nnn : Addr) (s : State),
    (¬ (s.cfg.strict = true ∧ 16 ≤ s.sp.toNat) → ∃ t, exec (.call nnn) s = .next t ∧
      t.stack[s.sp.toNat % 16] = s.pc ∧ (∀ k : Fin 16, k.val ≠ s.sp.toNat % 16 → t.stack[k] = s.stack[k]) ∧
      t.sp = s.sp + 1 ∧ t.pc = BitVec.ofNat 16 nnn.toNat ∧ OnlyChanges [.stack, .sp, .pc] s t) ∧
    (s.cfg.strict = true → 16 ≤ s.sp.toNat → ∃ t, exec (.call nnn) s = .next t ∧
      t.reply = .stackOverflow ∧ OnlyChanges [.reply] s t)

/-- Call and return (95_test_vectors.md 1.6, 90_conflicts.md C4): a RET after a CALL comes back to the word after the
call, with the SP of before it when that was in 0..15. -/
def Obligations.ReturnComesBackAfterCall : Prop :=
  ∀ (nnn : Addr) (s : State), s.sp.toNat < 16 →
    ∃ t u, exec (.call nnn) s = .next t ∧ exec .ret t = .next u ∧
      u.pc = s.pc + 2 ∧ u.sp = s.sp ∧ OnlyChanges [.pc, .stack] s u

/-- R102, R108: JP addr and JP V0, addr. -/
def Obligations.JumpsSetPc : Prop :=
  ∀ (nnn : Addr) (s : State),
    (∃ t, exec (.jp nnn) s = .next t ∧ t.pc = BitVec.ofNat 16 nnn.toNat ∧ OnlyChanges [.pc] s t) ∧
    (∃ t, exec (.jpV0 nnn) s = .next t ∧ t.pc = BitVec.ofNat 16 (nnn.toNat + (s.reg 0).toNat + 2) ∧
      OnlyChanges [.pc] s t)

/-- R104, R105: SE Vx, byte and SNE Vx, byte. -/
def Obligations.ByteSkipsCompareRegister : Prop :=
  ∀ (x : Reg) (nn : Byte) (s : State),
    (∃ t, exec (.seByte x nn) s = .next t ∧ (s.reg x = nn → t.pc = s.pc + 4) ∧ (s.reg x ≠ nn → t.pc = s.pc + 2) ∧
      OnlyChanges [.pc] s t) ∧
    (∃ t, exec (.sneByte x nn) s = .next t ∧ (s.reg x ≠ nn → t.pc = s.pc + 4) ∧ (s.reg x = nn → t.pc = s.pc + 2) ∧
      OnlyChanges [.pc] s t)

/-- R106, R107: SE Vx, Vy and SNE Vx, Vy (that any w[3:0] selects them is D4, in the encoding statements). -/
def Obligations.RegisterSkipsCompareRegisters : Prop :=
  ∀ (x y : Reg) (s : State),
    (∃ t, exec (.seReg x y) s = .next t ∧ (s.reg x = s.reg y → t.pc = s.pc + 4) ∧
      (s.reg x ≠ s.reg y → t.pc = s.pc + 2) ∧ OnlyChanges [.pc] s t) ∧
    (∃ t, exec (.sneReg x y) s = .next t ∧ (s.reg x ≠ s.reg y → t.pc = s.pc + 4) ∧
      (s.reg x = s.reg y → t.pc = s.pc + 2) ∧ OnlyChanges [.pc] s t)

/-- R121, R122, R123: LD Vx, byte; ADD Vx, byte; LD Vx, Vy. -/
def Obligations.LoadAndAddImmediateWriteVx : Prop :=
  ∀ (x y : Reg) (nn : Byte) (s : State),
    (∃ t, exec (.ldByte x nn) s = .next t ∧ t.reg x = nn ∧ t.pc = s.pc + 2 ∧
      RegsKeptExcept [x] s t ∧ OnlyChanges [.v, .pc] s t) ∧
    (∃ t, exec (.addByte x nn) s = .next t ∧ (t.reg x).toNat = ((s.reg x).toNat + nn.toNat) % 256 ∧ t.pc = s.pc + 2 ∧
      RegsKeptExcept [x] s t ∧ OnlyChanges [.v, .pc] s t) ∧
    (∃ t, exec (.ldReg x y) s = .next t ∧ t.reg x = s.reg y ∧ t.pc = s.pc + 2 ∧
      RegsKeptExcept [x] s t ∧ OnlyChanges [.v, .pc] s t)

/-- R124, R125, R126: OR, AND and XOR, which write no flag. -/
def Obligations.LogicInstructionsWriteVx : Prop :=
  ∀ (x y : Reg) (s : State),
    (∃ t, exec (.orReg x y) s = .next t ∧ t.reg x = s.reg x ||| s.reg y ∧ t.pc = s.pc + 2 ∧
      RegsKeptExcept [x] s t ∧ OnlyChanges [.v, .pc] s t) ∧
    (∃ t, exec (.andReg x y) s = .next t ∧ t.reg x = s.reg x &&& s.reg y ∧ t.pc = s.pc + 2 ∧
      RegsKeptExcept [x] s t ∧ OnlyChanges [.v, .pc] s t) ∧
    (∃ t, exec (.xorReg x y) s = .next t ∧ t.reg x = s.reg x ^^^ s.reg y ∧ t.pc = s.pc + 2 ∧
      RegsKeptExcept [x] s t ∧ OnlyChanges [.v, .pc] s t)

/-- R127: ADD Vx, Vy. With X = F the result is what VF holds (D6). -/
def Obligations.AddWritesSumAndCarry : Prop :=
  ∀ (x y : Reg) (s : State), ∃ t, exec (.addReg x y) s = .next t ∧
    (t.reg x).toNat = ((s.reg x).toNat + (s.reg y).toNat) % 256 ∧
    (x ≠ 15 → t.reg 15 = if (s.reg x).toNat + (s.reg y).toNat ≥ 256 then 1 else 0) ∧
    t.pc = s.pc + 2 ∧ RegsKeptExcept [x, 15] s t ∧ OnlyChanges [.v, .pc] s t

/-- R128, R130: SUB and SUBN, whose flags differ on equal operands. SUBN's "signed difference" is read as the integer
difference (D7); with X = F the result is what VF holds (D6). -/
def Obligations.SubtractionsWriteDifferenceAndFlag : Prop :=
  ∀ (x y : Reg) (s : State),
    (∃ t, exec (.sub x y) s = .next t ∧
      ((t.reg x).toNat : Int) = (((s.reg x).toNat : Int) - ((s.reg y).toNat : Int)) % 256 ∧
      (x ≠ 15 → t.reg 15 = if (s.reg x).toNat ≥ (s.reg y).toNat then 1 else 0) ∧
      t.pc = s.pc + 2 ∧ RegsKeptExcept [x, 15] s t ∧ OnlyChanges [.v, .pc] s t) ∧
    (∃ t, exec (.subn x y) s = .next t ∧
      ((t.reg x).toNat : Int) = (((s.reg y).toNat : Int) - ((s.reg x).toNat : Int)) % 256 ∧
      (x ≠ 15 → t.reg 15 = if ((s.reg y).toNat : Int) - ((s.reg x).toNat : Int) > 0 then 1 else 0) ∧
      t.pc = s.pc + 2 ∧ RegsKeptExcept [x, 15] s t ∧ OnlyChanges [.v, .pc] s t)

/-- R129, R131: SHR and SHL, with the low three bits of the old V[X] as flag and V[Y] not read; with X = F the result
is what VF holds (D6). -/
def Obligations.ShiftsWriteThreeBitFlag : Prop :=
  ∀ (x y : Reg) (s : State),
    (∃ t, exec (.shr x y) s = .next t ∧ (t.reg x).toNat = (s.reg x).toNat / 2 ∧
      (x ≠ 15 → (t.reg 15).toNat = (s.reg x).toNat % 8) ∧
      t.pc = s.pc + 2 ∧ RegsKeptExcept [x, 15] s t ∧ OnlyChanges [.v, .pc] s t) ∧
    (∃ t, exec (.shl x y) s = .next t ∧ (t.reg x).toNat = (s.reg x).toNat * 2 % 256 ∧
      (x ≠ 15 → (t.reg 15).toNat = (s.reg x).toNat % 8) ∧
      t.pc = s.pc + 2 ∧ RegsKeptExcept [x, 15] s t ∧ OnlyChanges [.v, .pc] s t)

/-- R132: RND Vx, byte, for every value of the free byte (D19, log 4). -/
def Obligations.RandomByteIsMasked : Prop :=
  ∀ (x : Reg) (nn : Byte) (s : State), ∃ t, exec (.rnd x nn) s = .next t ∧
    (∃ rnd : Byte, rnd = Config.randomByte s.draws ∧ t.reg x = rnd &&& nn) ∧ t.reg x &&& ~~~nn = 0 ∧
    t.draws = s.draws + 1 ∧ t.pc = s.pc + 2 ∧ RegsKeptExcept [x] s t ∧ OnlyChanges [.v, .pc, .draws] s t

/-- R150, R152: LD I, addr and LD F, Vx. -/
def Obligations.IndexLoadsSetI : Prop :=
  ∀ (nnn : Addr) (x : Reg) (s : State),
    (∃ t, exec (.ldI nnn) s = .next t ∧ t.i.toNat = nnn.toNat ∧ t.pc = s.pc + 2 ∧ OnlyChanges [.i, .pc] s t) ∧
    (∃ t, exec (.ldF x) s = .next t ∧ t.i.toNat = (s.reg x).toNat * 5 ∧ t.pc = s.pc + 2 ∧ OnlyChanges [.i, .pc] s t)

/-- R151: ADD I, Vx, with I not masked to 12 bits (D11) and no flag. -/
def Obligations.AddToIndexWrapsAtSixteenBits : Prop :=
  ∀ (x : Reg) (s : State), ∃ t, exec (.addI x) s = .next t ∧
    t.i.toNat = (s.i.toNat + (s.reg x).toNat) % 65536 ∧ t.pc = s.pc + 2 ∧ OnlyChanges [.i, .pc] s t

/-- R153: LD B, Vx stores the three decimal digits at I, I + 1, I + 2 (mod 4096: D10, anywhere in memory: D34) and
nothing else; I is kept (D21). -/
def Obligations.BcdStoresThreeDigits : Prop :=
  ∀ (x : Reg) (s : State), s.Inv → ∃ t, exec (.ldB x) s = .next t ∧
    (t.memRead s.i.toNat).toNat = (s.reg x).toNat / 100 ∧
    (t.memRead (s.i.toNat + 1)).toNat = (s.reg x).toNat / 10 % 10 ∧
    (t.memRead (s.i.toNat + 2)).toNat = (s.reg x).toNat % 10 ∧
    (∀ a, (∀ k < 3, a % 4096 ≠ (s.i.toNat + k) % 4096) → t.memRead a = s.memRead a) ∧
    t.pc = s.pc + 2 ∧ OnlyChanges [.mem, .pc] s t

/-- R155, R154: LD [I], Vx stores V0..V[X] at I .. I + X (mod 4096: D10) and nothing else; I is kept (D21). -/
def Obligations.RegisterDumpStoresRange : Prop :=
  ∀ (x : Reg) (s : State), s.Inv → ∃ t, exec (.ldMemVx x) s = .next t ∧
    (∀ k : Reg, k ≤ x → t.memRead (s.i.toNat + k.val) = s.reg k) ∧
    (∀ a, (∀ k : Reg, k ≤ x → a % 4096 ≠ (s.i.toNat + k.val) % 4096) → t.memRead a = s.memRead a) ∧
    t.pc = s.pc + 2 ∧ OnlyChanges [.mem, .pc] s t

/-- R156, R154: LD Vx, [I] loads V0..V[X] from I .. I + X (mod 4096: D10); I is kept (D21). -/
def Obligations.RegisterLoadReadsRange : Prop :=
  ∀ (x : Reg) (s : State), ∃ t, exec (.ldVxMem x) s = .next t ∧
    (∀ k : Reg, k ≤ x → t.reg k = s.memRead (s.i.toNat + k.val)) ∧
    (∀ k : Reg, x < k → t.reg k = s.reg k) ∧ t.pc = s.pc + 2 ∧ OnlyChanges [.v, .pc] s t

/-- R170: CLS. -/
def Obligations.ClearZeroesEveryCell : Prop :=
  ∀ s : State, ∃ t, exec .cls s = .next t ∧
    (∀ x y, x < 64 → y < 32 → Display.cell t.disp x y = false) ∧ t.pc = s.pc + 2 ∧ OnlyChanges [.disp, .pc] s t

/-- R171, R172, R173: DRW, for every row count. Each in-range cell the sprite covers is flipped and no other, VF says
whether one of them was lit, nothing wraps. The coordinates are read before VF is cleared (D8), bit 7 is the leftmost
column (D9). -/
def Obligations.DrawXorsSpriteAndReportsCollision : Prop :=
  ∀ (x y : Reg) (n : Nat) (s : State), ∃ t, exec (.drw x y n) s = .next t ∧
    (∀ px py, px < 64 → py < 32 →
      (SpriteCovers s (s.reg x).toNat (s.reg y).toNat n px py →
        Display.cell t.disp px py = !Display.cell s.disp px py) ∧
      (¬ SpriteCovers s (s.reg x).toNat (s.reg y).toNat n px py →
        Display.cell t.disp px py = Display.cell s.disp px py)) ∧
    ((∃ px py, px < 64 ∧ py < 32 ∧ SpriteCovers s (s.reg x).toNat (s.reg y).toNat n px py ∧
      Display.cell s.disp px py = true) → t.reg 15 = 1) ∧
    ((¬ ∃ px py, px < 64 ∧ py < 32 ∧ SpriteCovers s (s.reg x).toNat (s.reg y).toNat n px py ∧
      Display.cell s.disp px py = true) → t.reg 15 = 0) ∧
    t.pc = s.pc + 2 ∧ RegsKeptExcept [15] s t ∧ OnlyChanges [.disp, .v, .pc] s t

/-- 95_test_vectors.md 1.5, over every sprite: drawn a second time at the same coordinates it restores the display, and
on a display that was blank the first draw reports no collision and the second reports one when the sprite shows. -/
def Obligations.DrawingTwiceRestoresDisplay : Prop :=
  ∀ (x y : Reg) (n : Nat) (s t u : State), exec (.drw x y n) s = .next t → exec (.drw x y n) t = .next u →
    t.reg x = s.reg x → t.reg y = s.reg y →
    u.disp = s.disp ∧
    (s.disp = blankDisplay → t.reg 15 = 0 ∧
      ((∃ px py, px < 64 ∧ py < 32 ∧ SpriteCovers s (s.reg x).toNat (s.reg y).toNat n px py) → u.reg 15 = 1))

/-- R180, R181: SKP and SKNP look at the key of the low four bits of V[X] (R186: D13). -/
def Obligations.KeySkipsFollowLatch : Prop :=
  ∀ (x : Reg) (s : State),
    (∃ t, exec (.skp x) s = .next t ∧
      (s.keys[(s.reg x).toNat % 16] = true → t.pc = s.pc + 4) ∧
      (s.keys[(s.reg x).toNat % 16] = false → t.pc = s.pc + 2) ∧ OnlyChanges [.pc] s t) ∧
    (∃ t, exec (.sknp x) s = .next t ∧
      (s.keys[(s.reg x).toNat % 16] = false → t.pc = s.pc + 4) ∧
      (s.keys[(s.reg x).toNat % 16] = true → t.pc = s.pc + 2) ∧ OnlyChanges [.pc] s t)

/-- R183: LD Vx, K takes the lowest pressed key and advances PC once (D22); with no key pressed it changes nothing. -/
def Obligations.KeyWaitTakesLowestKey : Prop :=
  ∀ (x : Reg) (s : State),
    (∀ k : Fin 16, s.keyDown k = true → (∀ j, j < k → s.keyDown j = false) → ∃ t, exec (.ldVxK x) s = .next t ∧
      (t.reg x).toNat = k.val ∧ t.pc = s.pc + 2 ∧ RegsKeptExcept [x] s t ∧ OnlyChanges [.v, .pc] s t) ∧
    ((∀ k, s.keyDown k = false) → exec (.ldVxK x) s = .next s)

/-- R182, R184, R185: LD Vx, DT; LD DT, Vx; LD ST, Vx. In a step the tick follows: FX07 reads DT before it, and the
value FX15 or FX18 wrote is one less (or 0) at the step's end, which the spec infers from R80 and R210 (the tick: log
15). -/
def Obligations.TimerMovesCopyBytes : Prop :=
  ∀ (x : Reg) (s : State),
    (∃ t, exec (.ldVxDt x) s = .next t ∧ t.reg x = s.dt ∧ t.pc = s.pc + 2 ∧
      RegsKeptExcept [x] s t ∧ OnlyChanges [.v, .pc] s t ∧
      (s.reply = .ok → t.endStep.reg x = s.dt ∧ t.endStep.dt.toNat = s.dt.toNat - 1)) ∧
    (∃ t, exec (.ldDtVx x) s = .next t ∧ t.dt = s.reg x ∧ t.pc = s.pc + 2 ∧ OnlyChanges [.dt, .pc] s t ∧
      (s.reply = .ok → t.endStep.dt.toNat = (s.reg x).toNat - 1)) ∧
    (∃ t, exec (.ldStVx x) s = .next t ∧ t.st = s.reg x ∧ t.pc = s.pc + 2 ∧ OnlyChanges [.st, .pc] s t ∧
      (s.reply = .ok → t.endStep.st.toNat = (s.reg x).toNat - 1))
end

