-- ==== Sys2Proof/Laws/State.lean ====
section
/-! SUPPORT. One lemma per field per update of State, and the few ways a register, a byte of memory or a key is read
after an update. -/

namespace Sys2Proof.Machine.State

variable (s : State)

@[simp] theorem setReg_v (x : Reg) (b : Byte) : (s.setReg x b).v = s.v.set x b := rfl
@[simp] theorem setReg_i (x : Reg) (b : Byte) : (s.setReg x b).i = s.i := rfl
@[simp] theorem setReg_pc (x : Reg) (b : Byte) : (s.setReg x b).pc = s.pc := rfl
@[simp] theorem setReg_sp (x : Reg) (b : Byte) : (s.setReg x b).sp = s.sp := rfl
@[simp] theorem setReg_stack (x : Reg) (b : Byte) : (s.setReg x b).stack = s.stack := rfl
@[simp] theorem setReg_dt (x : Reg) (b : Byte) : (s.setReg x b).dt = s.dt := rfl
@[simp] theorem setReg_st (x : Reg) (b : Byte) : (s.setReg x b).st = s.st := rfl
@[simp] theorem setReg_keys (x : Reg) (b : Byte) : (s.setReg x b).keys = s.keys := rfl
@[simp] theorem setReg_disp (x : Reg) (b : Byte) : (s.setReg x b).disp = s.disp := rfl
@[simp] theorem setReg_mem (x : Reg) (b : Byte) : (s.setReg x b).mem = s.mem := rfl
@[simp] theorem setReg_ir (x : Reg) (b : Byte) : (s.setReg x b).ir = s.ir := rfl
@[simp] theorem setReg_reply (x : Reg) (b : Byte) : (s.setReg x b).reply = s.reply := rfl
@[simp] theorem setReg_draws (x : Reg) (b : Byte) : (s.setReg x b).draws = s.draws := rfl
@[simp] theorem setReg_cfg (x : Reg) (b : Byte) : (s.setReg x b).cfg = s.cfg := rfl
@[simp] theorem setReg_memRead (x : Reg) (b : Byte) (a : Nat) : (s.setReg x b).memRead a = s.memRead a := rfl
@[simp] theorem setReg_keyDown (x : Reg) (b : Byte) (j : Fin 16) : (s.setReg x b).keyDown j = s.keyDown j := rfl

@[simp] theorem setV_v (w : Vector Byte 16) : (s.setV w).v = w := rfl
@[simp] theorem setV_i (w : Vector Byte 16) : (s.setV w).i = s.i := rfl
@[simp] theorem setV_pc (w : Vector Byte 16) : (s.setV w).pc = s.pc := rfl
@[simp] theorem setV_sp (w : Vector Byte 16) : (s.setV w).sp = s.sp := rfl
@[simp] theorem setV_stack (w : Vector Byte 16) : (s.setV w).stack = s.stack := rfl
@[simp] theorem setV_dt (w : Vector Byte 16) : (s.setV w).dt = s.dt := rfl
@[simp] theorem setV_st (w : Vector Byte 16) : (s.setV w).st = s.st := rfl
@[simp] theorem setV_keys (w : Vector Byte 16) : (s.setV w).keys = s.keys := rfl
@[simp] theorem setV_disp (w : Vector Byte 16) : (s.setV w).disp = s.disp := rfl
@[simp] theorem setV_mem (w : Vector Byte 16) : (s.setV w).mem = s.mem := rfl
@[simp] theorem setV_ir (w : Vector Byte 16) : (s.setV w).ir = s.ir := rfl
@[simp] theorem setV_reply (w : Vector Byte 16) : (s.setV w).reply = s.reply := rfl
@[simp] theorem setV_draws (w : Vector Byte 16) : (s.setV w).draws = s.draws := rfl
@[simp] theorem setV_cfg (w : Vector Byte 16) : (s.setV w).cfg = s.cfg := rfl
@[simp] theorem setV_memRead (w : Vector Byte 16) (a : Nat) : (s.setV w).memRead a = s.memRead a := rfl
@[simp] theorem setV_keyDown (w : Vector Byte 16) (j : Fin 16) : (s.setV w).keyDown j = s.keyDown j := rfl

@[simp] theorem setI_v (w : Word) : (s.setI w).v = s.v := rfl
@[simp] theorem setI_i (w : Word) : (s.setI w).i = w := rfl
@[simp] theorem setI_pc (w : Word) : (s.setI w).pc = s.pc := rfl
@[simp] theorem setI_sp (w : Word) : (s.setI w).sp = s.sp := rfl
@[simp] theorem setI_stack (w : Word) : (s.setI w).stack = s.stack := rfl
@[simp] theorem setI_dt (w : Word) : (s.setI w).dt = s.dt := rfl
@[simp] theorem setI_st (w : Word) : (s.setI w).st = s.st := rfl
@[simp] theorem setI_keys (w : Word) : (s.setI w).keys = s.keys := rfl
@[simp] theorem setI_disp (w : Word) : (s.setI w).disp = s.disp := rfl
@[simp] theorem setI_mem (w : Word) : (s.setI w).mem = s.mem := rfl
@[simp] theorem setI_ir (w : Word) : (s.setI w).ir = s.ir := rfl
@[simp] theorem setI_reply (w : Word) : (s.setI w).reply = s.reply := rfl
@[simp] theorem setI_draws (w : Word) : (s.setI w).draws = s.draws := rfl
@[simp] theorem setI_cfg (w : Word) : (s.setI w).cfg = s.cfg := rfl
@[simp] theorem setI_reg (w : Word) (q : Reg) : (s.setI w).reg q = s.reg q := rfl
@[simp] theorem setI_memRead (w : Word) (a : Nat) : (s.setI w).memRead a = s.memRead a := rfl
@[simp] theorem setI_keyDown (w : Word) (j : Fin 16) : (s.setI w).keyDown j = s.keyDown j := rfl

@[simp] theorem setPc_v (w : Word) : (s.setPc w).v = s.v := rfl
@[simp] theorem setPc_i (w : Word) : (s.setPc w).i = s.i := rfl
@[simp] theorem setPc_pc (w : Word) : (s.setPc w).pc = w := rfl
@[simp] theorem setPc_sp (w : Word) : (s.setPc w).sp = s.sp := rfl
@[simp] theorem setPc_stack (w : Word) : (s.setPc w).stack = s.stack := rfl
@[simp] theorem setPc_dt (w : Word) : (s.setPc w).dt = s.dt := rfl
@[simp] theorem setPc_st (w : Word) : (s.setPc w).st = s.st := rfl
@[simp] theorem setPc_keys (w : Word) : (s.setPc w).keys = s.keys := rfl
@[simp] theorem setPc_disp (w : Word) : (s.setPc w).disp = s.disp := rfl
@[simp] theorem setPc_mem (w : Word) : (s.setPc w).mem = s.mem := rfl
@[simp] theorem setPc_ir (w : Word) : (s.setPc w).ir = s.ir := rfl
@[simp] theorem setPc_reply (w : Word) : (s.setPc w).reply = s.reply := rfl
@[simp] theorem setPc_draws (w : Word) : (s.setPc w).draws = s.draws := rfl
@[simp] theorem setPc_cfg (w : Word) : (s.setPc w).cfg = s.cfg := rfl
@[simp] theorem setPc_reg (w : Word) (q : Reg) : (s.setPc w).reg q = s.reg q := rfl
@[simp] theorem setPc_memRead (w : Word) (a : Nat) : (s.setPc w).memRead a = s.memRead a := rfl
@[simp] theorem setPc_keyDown (w : Word) (j : Fin 16) : (s.setPc w).keyDown j = s.keyDown j := rfl

@[simp] theorem setSp_v (w : Word) : (s.setSp w).v = s.v := rfl
@[simp] theorem setSp_i (w : Word) : (s.setSp w).i = s.i := rfl
@[simp] theorem setSp_pc (w : Word) : (s.setSp w).pc = s.pc := rfl
@[simp] theorem setSp_sp (w : Word) : (s.setSp w).sp = w := rfl
@[simp] theorem setSp_stack (w : Word) : (s.setSp w).stack = s.stack := rfl
@[simp] theorem setSp_dt (w : Word) : (s.setSp w).dt = s.dt := rfl
@[simp] theorem setSp_st (w : Word) : (s.setSp w).st = s.st := rfl
@[simp] theorem setSp_keys (w : Word) : (s.setSp w).keys = s.keys := rfl
@[simp] theorem setSp_disp (w : Word) : (s.setSp w).disp = s.disp := rfl
@[simp] theorem setSp_mem (w : Word) : (s.setSp w).mem = s.mem := rfl
@[simp] theorem setSp_ir (w : Word) : (s.setSp w).ir = s.ir := rfl
@[simp] theorem setSp_reply (w : Word) : (s.setSp w).reply = s.reply := rfl
@[simp] theorem setSp_draws (w : Word) : (s.setSp w).draws = s.draws := rfl
@[simp] theorem setSp_cfg (w : Word) : (s.setSp w).cfg = s.cfg := rfl
@[simp] theorem setSp_reg (w : Word) (q : Reg) : (s.setSp w).reg q = s.reg q := rfl
@[simp] theorem setSp_memRead (w : Word) (a : Nat) : (s.setSp w).memRead a = s.memRead a := rfl
@[simp] theorem setSp_keyDown (w : Word) (j : Fin 16) : (s.setSp w).keyDown j = s.keyDown j := rfl

@[simp] theorem setStack_v (k : Fin 16) (w : Word) : (s.setStack k w).v = s.v := rfl
@[simp] theorem setStack_i (k : Fin 16) (w : Word) : (s.setStack k w).i = s.i := rfl
@[simp] theorem setStack_pc (k : Fin 16) (w : Word) : (s.setStack k w).pc = s.pc := rfl
@[simp] theorem setStack_sp (k : Fin 16) (w : Word) : (s.setStack k w).sp = s.sp := rfl
@[simp] theorem setStack_stack (k : Fin 16) (w : Word) : (s.setStack k w).stack = s.stack.set k w := rfl
@[simp] theorem setStack_dt (k : Fin 16) (w : Word) : (s.setStack k w).dt = s.dt := rfl
@[simp] theorem setStack_st (k : Fin 16) (w : Word) : (s.setStack k w).st = s.st := rfl
@[simp] theorem setStack_keys (k : Fin 16) (w : Word) : (s.setStack k w).keys = s.keys := rfl
@[simp] theorem setStack_disp (k : Fin 16) (w : Word) : (s.setStack k w).disp = s.disp := rfl
@[simp] theorem setStack_mem (k : Fin 16) (w : Word) : (s.setStack k w).mem = s.mem := rfl
@[simp] theorem setStack_ir (k : Fin 16) (w : Word) : (s.setStack k w).ir = s.ir := rfl
@[simp] theorem setStack_reply (k : Fin 16) (w : Word) : (s.setStack k w).reply = s.reply := rfl
@[simp] theorem setStack_draws (k : Fin 16) (w : Word) : (s.setStack k w).draws = s.draws := rfl
@[simp] theorem setStack_cfg (k : Fin 16) (w : Word) : (s.setStack k w).cfg = s.cfg := rfl
@[simp] theorem setStack_reg (k : Fin 16) (w : Word) (q : Reg) : (s.setStack k w).reg q = s.reg q := rfl
@[simp] theorem setStack_memRead (k : Fin 16) (w : Word) (a : Nat) : (s.setStack k w).memRead a = s.memRead a := rfl
@[simp] theorem setStack_keyDown (k : Fin 16) (w : Word) (j : Fin 16) : (s.setStack k w).keyDown j = s.keyDown j := rfl

@[simp] theorem setDt_v (b : Byte) : (s.setDt b).v = s.v := rfl
@[simp] theorem setDt_i (b : Byte) : (s.setDt b).i = s.i := rfl
@[simp] theorem setDt_pc (b : Byte) : (s.setDt b).pc = s.pc := rfl
@[simp] theorem setDt_sp (b : Byte) : (s.setDt b).sp = s.sp := rfl
@[simp] theorem setDt_stack (b : Byte) : (s.setDt b).stack = s.stack := rfl
@[simp] theorem setDt_dt (b : Byte) : (s.setDt b).dt = b := rfl
@[simp] theorem setDt_st (b : Byte) : (s.setDt b).st = s.st := rfl
@[simp] theorem setDt_keys (b : Byte) : (s.setDt b).keys = s.keys := rfl
@[simp] theorem setDt_disp (b : Byte) : (s.setDt b).disp = s.disp := rfl
@[simp] theorem setDt_mem (b : Byte) : (s.setDt b).mem = s.mem := rfl
@[simp] theorem setDt_ir (b : Byte) : (s.setDt b).ir = s.ir := rfl
@[simp] theorem setDt_reply (b : Byte) : (s.setDt b).reply = s.reply := rfl
@[simp] theorem setDt_draws (b : Byte) : (s.setDt b).draws = s.draws := rfl
@[simp] theorem setDt_cfg (b : Byte) : (s.setDt b).cfg = s.cfg := rfl
@[simp] theorem setDt_reg (b : Byte) (q : Reg) : (s.setDt b).reg q = s.reg q := rfl
@[simp] theorem setDt_memRead (b : Byte) (a : Nat) : (s.setDt b).memRead a = s.memRead a := rfl
@[simp] theorem setDt_keyDown (b : Byte) (j : Fin 16) : (s.setDt b).keyDown j = s.keyDown j := rfl

@[simp] theorem setSt_v (b : Byte) : (s.setSt b).v = s.v := rfl
@[simp] theorem setSt_i (b : Byte) : (s.setSt b).i = s.i := rfl
@[simp] theorem setSt_pc (b : Byte) : (s.setSt b).pc = s.pc := rfl
@[simp] theorem setSt_sp (b : Byte) : (s.setSt b).sp = s.sp := rfl
@[simp] theorem setSt_stack (b : Byte) : (s.setSt b).stack = s.stack := rfl
@[simp] theorem setSt_dt (b : Byte) : (s.setSt b).dt = s.dt := rfl
@[simp] theorem setSt_st (b : Byte) : (s.setSt b).st = b := rfl
@[simp] theorem setSt_keys (b : Byte) : (s.setSt b).keys = s.keys := rfl
@[simp] theorem setSt_disp (b : Byte) : (s.setSt b).disp = s.disp := rfl
@[simp] theorem setSt_mem (b : Byte) : (s.setSt b).mem = s.mem := rfl
@[simp] theorem setSt_ir (b : Byte) : (s.setSt b).ir = s.ir := rfl
@[simp] theorem setSt_reply (b : Byte) : (s.setSt b).reply = s.reply := rfl
@[simp] theorem setSt_draws (b : Byte) : (s.setSt b).draws = s.draws := rfl
@[simp] theorem setSt_cfg (b : Byte) : (s.setSt b).cfg = s.cfg := rfl
@[simp] theorem setSt_reg (b : Byte) (q : Reg) : (s.setSt b).reg q = s.reg q := rfl
@[simp] theorem setSt_memRead (b : Byte) (a : Nat) : (s.setSt b).memRead a = s.memRead a := rfl
@[simp] theorem setSt_keyDown (b : Byte) (j : Fin 16) : (s.setSt b).keyDown j = s.keyDown j := rfl

@[simp] theorem setKeys_v (k : Vector Bool 16) : (s.setKeys k).v = s.v := rfl
@[simp] theorem setKeys_i (k : Vector Bool 16) : (s.setKeys k).i = s.i := rfl
@[simp] theorem setKeys_pc (k : Vector Bool 16) : (s.setKeys k).pc = s.pc := rfl
@[simp] theorem setKeys_sp (k : Vector Bool 16) : (s.setKeys k).sp = s.sp := rfl
@[simp] theorem setKeys_stack (k : Vector Bool 16) : (s.setKeys k).stack = s.stack := rfl
@[simp] theorem setKeys_dt (k : Vector Bool 16) : (s.setKeys k).dt = s.dt := rfl
@[simp] theorem setKeys_st (k : Vector Bool 16) : (s.setKeys k).st = s.st := rfl
@[simp] theorem setKeys_keys (k : Vector Bool 16) : (s.setKeys k).keys = k := rfl
@[simp] theorem setKeys_disp (k : Vector Bool 16) : (s.setKeys k).disp = s.disp := rfl
@[simp] theorem setKeys_mem (k : Vector Bool 16) : (s.setKeys k).mem = s.mem := rfl
@[simp] theorem setKeys_ir (k : Vector Bool 16) : (s.setKeys k).ir = s.ir := rfl
@[simp] theorem setKeys_reply (k : Vector Bool 16) : (s.setKeys k).reply = s.reply := rfl
@[simp] theorem setKeys_draws (k : Vector Bool 16) : (s.setKeys k).draws = s.draws := rfl
@[simp] theorem setKeys_cfg (k : Vector Bool 16) : (s.setKeys k).cfg = s.cfg := rfl
@[simp] theorem setKeys_reg (k : Vector Bool 16) (q : Reg) : (s.setKeys k).reg q = s.reg q := rfl
@[simp] theorem setKeys_memRead (k : Vector Bool 16) (a : Nat) : (s.setKeys k).memRead a = s.memRead a := rfl

@[simp] theorem setDisp_v (d : Display) : (s.setDisp d).v = s.v := rfl
@[simp] theorem setDisp_i (d : Display) : (s.setDisp d).i = s.i := rfl
@[simp] theorem setDisp_pc (d : Display) : (s.setDisp d).pc = s.pc := rfl
@[simp] theorem setDisp_sp (d : Display) : (s.setDisp d).sp = s.sp := rfl
@[simp] theorem setDisp_stack (d : Display) : (s.setDisp d).stack = s.stack := rfl
@[simp] theorem setDisp_dt (d : Display) : (s.setDisp d).dt = s.dt := rfl
@[simp] theorem setDisp_st (d : Display) : (s.setDisp d).st = s.st := rfl
@[simp] theorem setDisp_keys (d : Display) : (s.setDisp d).keys = s.keys := rfl
@[simp] theorem setDisp_disp (d : Display) : (s.setDisp d).disp = d := rfl
@[simp] theorem setDisp_mem (d : Display) : (s.setDisp d).mem = s.mem := rfl
@[simp] theorem setDisp_ir (d : Display) : (s.setDisp d).ir = s.ir := rfl
@[simp] theorem setDisp_reply (d : Display) : (s.setDisp d).reply = s.reply := rfl
@[simp] theorem setDisp_draws (d : Display) : (s.setDisp d).draws = s.draws := rfl
@[simp] theorem setDisp_cfg (d : Display) : (s.setDisp d).cfg = s.cfg := rfl
@[simp] theorem setDisp_reg (d : Display) (q : Reg) : (s.setDisp d).reg q = s.reg q := rfl
@[simp] theorem setDisp_memRead (d : Display) (a : Nat) : (s.setDisp d).memRead a = s.memRead a := rfl
@[simp] theorem setDisp_keyDown (d : Display) (j : Fin 16) : (s.setDisp d).keyDown j = s.keyDown j := rfl

@[simp] theorem setMem_v (m : Memory) : (s.setMem m).v = s.v := rfl
@[simp] theorem setMem_i (m : Memory) : (s.setMem m).i = s.i := rfl
@[simp] theorem setMem_pc (m : Memory) : (s.setMem m).pc = s.pc := rfl
@[simp] theorem setMem_sp (m : Memory) : (s.setMem m).sp = s.sp := rfl
@[simp] theorem setMem_stack (m : Memory) : (s.setMem m).stack = s.stack := rfl
@[simp] theorem setMem_dt (m : Memory) : (s.setMem m).dt = s.dt := rfl
@[simp] theorem setMem_st (m : Memory) : (s.setMem m).st = s.st := rfl
@[simp] theorem setMem_keys (m : Memory) : (s.setMem m).keys = s.keys := rfl
@[simp] theorem setMem_disp (m : Memory) : (s.setMem m).disp = s.disp := rfl
@[simp] theorem setMem_mem (m : Memory) : (s.setMem m).mem = m := rfl
@[simp] theorem setMem_ir (m : Memory) : (s.setMem m).ir = s.ir := rfl
@[simp] theorem setMem_reply (m : Memory) : (s.setMem m).reply = s.reply := rfl
@[simp] theorem setMem_draws (m : Memory) : (s.setMem m).draws = s.draws := rfl
@[simp] theorem setMem_cfg (m : Memory) : (s.setMem m).cfg = s.cfg := rfl
@[simp] theorem setMem_reg (m : Memory) (q : Reg) : (s.setMem m).reg q = s.reg q := rfl
@[simp] theorem setMem_keyDown (m : Memory) (j : Fin 16) : (s.setMem m).keyDown j = s.keyDown j := rfl

@[simp] theorem setIr_v (w : Word) : (s.setIr w).v = s.v := rfl
@[simp] theorem setIr_i (w : Word) : (s.setIr w).i = s.i := rfl
@[simp] theorem setIr_pc (w : Word) : (s.setIr w).pc = s.pc := rfl
@[simp] theorem setIr_sp (w : Word) : (s.setIr w).sp = s.sp := rfl
@[simp] theorem setIr_stack (w : Word) : (s.setIr w).stack = s.stack := rfl
@[simp] theorem setIr_dt (w : Word) : (s.setIr w).dt = s.dt := rfl
@[simp] theorem setIr_st (w : Word) : (s.setIr w).st = s.st := rfl
@[simp] theorem setIr_keys (w : Word) : (s.setIr w).keys = s.keys := rfl
@[simp] theorem setIr_disp (w : Word) : (s.setIr w).disp = s.disp := rfl
@[simp] theorem setIr_mem (w : Word) : (s.setIr w).mem = s.mem := rfl
@[simp] theorem setIr_ir (w : Word) : (s.setIr w).ir = w := rfl
@[simp] theorem setIr_reply (w : Word) : (s.setIr w).reply = s.reply := rfl
@[simp] theorem setIr_draws (w : Word) : (s.setIr w).draws = s.draws := rfl
@[simp] theorem setIr_cfg (w : Word) : (s.setIr w).cfg = s.cfg := rfl
@[simp] theorem setIr_reg (w : Word) (q : Reg) : (s.setIr w).reg q = s.reg q := rfl
@[simp] theorem setIr_memRead (w : Word) (a : Nat) : (s.setIr w).memRead a = s.memRead a := rfl
@[simp] theorem setIr_keyDown (w : Word) (j : Fin 16) : (s.setIr w).keyDown j = s.keyDown j := rfl

@[simp] theorem setReply_v (r : Reply) : (s.setReply r).v = s.v := rfl
@[simp] theorem setReply_i (r : Reply) : (s.setReply r).i = s.i := rfl
@[simp] theorem setReply_pc (r : Reply) : (s.setReply r).pc = s.pc := rfl
@[simp] theorem setReply_sp (r : Reply) : (s.setReply r).sp = s.sp := rfl
@[simp] theorem setReply_stack (r : Reply) : (s.setReply r).stack = s.stack := rfl
@[simp] theorem setReply_dt (r : Reply) : (s.setReply r).dt = s.dt := rfl
@[simp] theorem setReply_st (r : Reply) : (s.setReply r).st = s.st := rfl
@[simp] theorem setReply_keys (r : Reply) : (s.setReply r).keys = s.keys := rfl
@[simp] theorem setReply_disp (r : Reply) : (s.setReply r).disp = s.disp := rfl
@[simp] theorem setReply_mem (r : Reply) : (s.setReply r).mem = s.mem := rfl
@[simp] theorem setReply_ir (r : Reply) : (s.setReply r).ir = s.ir := rfl
@[simp] theorem setReply_reply (r : Reply) : (s.setReply r).reply = r := rfl
@[simp] theorem setReply_draws (r : Reply) : (s.setReply r).draws = s.draws := rfl
@[simp] theorem setReply_cfg (r : Reply) : (s.setReply r).cfg = s.cfg := rfl
@[simp] theorem setReply_reg (r : Reply) (q : Reg) : (s.setReply r).reg q = s.reg q := rfl
@[simp] theorem setReply_memRead (r : Reply) (a : Nat) : (s.setReply r).memRead a = s.memRead a := rfl
@[simp] theorem setReply_keyDown (r : Reply) (j : Fin 16) : (s.setReply r).keyDown j = s.keyDown j := rfl

@[simp] theorem setDraws_v (n : Nat) : (s.setDraws n).v = s.v := rfl
@[simp] theorem setDraws_i (n : Nat) : (s.setDraws n).i = s.i := rfl
@[simp] theorem setDraws_pc (n : Nat) : (s.setDraws n).pc = s.pc := rfl
@[simp] theorem setDraws_sp (n : Nat) : (s.setDraws n).sp = s.sp := rfl
@[simp] theorem setDraws_stack (n : Nat) : (s.setDraws n).stack = s.stack := rfl
@[simp] theorem setDraws_dt (n : Nat) : (s.setDraws n).dt = s.dt := rfl
@[simp] theorem setDraws_st (n : Nat) : (s.setDraws n).st = s.st := rfl
@[simp] theorem setDraws_keys (n : Nat) : (s.setDraws n).keys = s.keys := rfl
@[simp] theorem setDraws_disp (n : Nat) : (s.setDraws n).disp = s.disp := rfl
@[simp] theorem setDraws_mem (n : Nat) : (s.setDraws n).mem = s.mem := rfl
@[simp] theorem setDraws_ir (n : Nat) : (s.setDraws n).ir = s.ir := rfl
@[simp] theorem setDraws_reply (n : Nat) : (s.setDraws n).reply = s.reply := rfl
@[simp] theorem setDraws_draws (n : Nat) : (s.setDraws n).draws = n := rfl
@[simp] theorem setDraws_cfg (n : Nat) : (s.setDraws n).cfg = s.cfg := rfl
@[simp] theorem setDraws_reg (n : Nat) (q : Reg) : (s.setDraws n).reg q = s.reg q := rfl
@[simp] theorem setDraws_memRead (n : Nat) (a : Nat) : (s.setDraws n).memRead a = s.memRead a := rfl
@[simp] theorem setDraws_keyDown (n : Nat) (j : Fin 16) : (s.setDraws n).keyDown j = s.keyDown j := rfl

/-! ### Registers -/

theorem setReg_reg (x r : Reg) (b : Byte) : (s.setReg x b).reg r = if r = x then b else s.reg r := by
  simp only [State.reg, State.setReg, Fin.getElem_fin, Vector.getElem_set, Fin.val_inj, eq_comm]

@[simp] theorem setReg_reg_same (x : Reg) (b : Byte) : (s.setReg x b).reg x = b := by
  simp [setReg_reg]

theorem setReg_reg_ne (x r : Reg) (b : Byte) (h : r ≠ x) : (s.setReg x b).reg r = s.reg r := by
  simp [setReg_reg, h]

/-- The flag is written first and the result second, so the result is what a flag-writing instruction with X = F
leaves. -/
theorem setFlagThenReg_reg (flag result : Byte) (x r : Reg) :
    (s.setFlagThenReg flag x result).reg r = if r = x then result else if r = vf then flag else s.reg r := by
  simp [State.setFlagThenReg, setReg_reg]

/-! ### The composite updates, in terms of the plain ones -/

@[simp] theorem advance_eq : s.advance = s.setPc (s.pc + 2) := rfl

@[simp] theorem skipIf_eq (c : Bool) : s.skipIf c = s.setPc (if c then s.pc + 4 else s.pc + 2) := rfl

@[simp] theorem push_eq (w : Word) : s.push w = (s.setStack (stackSlot s.sp) w).setSp (s.sp + 1) := rfl

@[simp] theorem memWrite_eq (a : Nat) (bs : List Byte) : s.memWrite a bs = s.setMem (Memory.writeBytes s.mem a bs) := rfl

@[simp] theorem latch_eq (w : Word) : s.latch w = (s.setIr w).setReply .ok := rfl

@[simp] theorem raise_eq (e : Reply) : s.raise e = s.setReply e := rfl

@[simp] theorem tick_eq : s.tick = (s.setDt (decTimer s.dt)).setSt (decTimer s.st) := rfl

end Sys2Proof.Machine.State
end

