-- ==== Sys2Proof/Laws/Display.lean ====
section
/-! SUPPORT. The sprite engine: what one pixel, one row and a whole sprite do to the cells and to the collision flag. -/

namespace Sys2Proof.Machine

theorem Display.cell_outside (d : Display) (x y : Nat) (h : ¬ (x < 64 ∧ y < 32)) : Display.cell d x y = false := by
  simp [Display.cell, h]

theorem Display.cell_blank (x y : Nat) : Display.cell blankDisplay x y = false := by
  unfold Display.cell blankDisplay
  split <;> simp

theorem Display.cell_flip (d : Display) (x y x' y' : Nat) :
    Display.cell (Display.flip d x y) x' y' =
      (Display.cell d x' y' ^^ decide (x' = x ∧ y' = y ∧ x < 64 ∧ y < 32)) := by
  unfold Display.flip
  split_ifs with h
  · by_cases h' : x' < 64 ∧ y' < 32
    · simp only [Display.cell, h', dif_pos, Vector.getElem_set, and_self]
      by_cases hy : y = y'
      · subst hy
        by_cases hx : x = x'
        · subst hx; simp [h]
        · simp [hx, Ne.symm hx]
      · simp [hy, Ne.symm hy]
    · have : ¬ (x' = x ∧ y' = y ∧ x < 64 ∧ y < 32) := by omega
      simp [Display.cell_outside _ _ _ h', this]
  · have : ¬ (x' = x ∧ y' = y ∧ x < 64 ∧ y < 32) := by omega
    simp [this]

/-- The first k columns of a sprite row. -/
theorem Plot.row_upTo (b : Byte) (x0 y : Nat) (p : Plot) (k : Nat) :
    let q := (List.range k).foldl (fun p c => if b.getLsbD (7 - c) then Plot.pixel p (x0 + c) y else p) p
    (∀ x' y', Display.cell q.1 x' y' = (Display.cell p.1 x' y' ^^
      decide (y' = y ∧ x' < 64 ∧ y' < 32 ∧ x0 ≤ x' ∧ x' < x0 + k ∧ b.getLsbD (7 - (x' - x0)) = true))) ∧
    (q.2 = true ↔ p.2 = true ∨ ∃ c < k, b.getLsbD (7 - c) = true ∧ Display.cell p.1 (x0 + c) y = true) := by
  induction k with
  | zero =>
    refine ⟨fun x' y' => ?_, by simp⟩
    have : ¬ (y' = y ∧ x' < 64 ∧ y' < 32 ∧ x0 ≤ x' ∧ x' < x0 + 0 ∧ b.getLsbD (7 - (x' - x0)) = true) := by
      rintro ⟨-, -, -, h, h', -⟩; omega
    rw [decide_eq_false this]; simp
  | succ k ih =>
    obtain ⟨ihc, ihf⟩ := ih
    simp only [List.range_succ, List.foldl_append, List.foldl_cons, List.foldl_nil]
    generalize (List.range k).foldl (fun p c => if b.getLsbD (7 - c) then Plot.pixel p (x0 + c) y else p) p = q at ihc ihf
    have hlt : ∀ P : Nat → Prop, (∃ c < k + 1, P c) ↔ (∃ c < k, P c) ∨ P k := by
      intro P
      constructor
      · rintro ⟨c, hc, h⟩
        rcases Nat.lt_succ_iff_lt_or_eq.1 hc with h' | rfl
        · exact .inl ⟨c, h', h⟩
        · exact .inr h
      · rintro (⟨c, hc, h⟩ | h)
        · exact ⟨c, by omega, h⟩
        · exact ⟨k, by omega, h⟩
    split_ifs with hb
    · refine ⟨fun x' y' => ?_, ?_⟩
      · simp only [Plot.pixel, Display.cell_flip, ihc, Bool.xor_assoc]
        congr 1
        by_cases hx : x' = x0 + k
        · subst hx
          by_cases hy : y' = y <;> simp [hb, hy]
        · have h1 : (x0 ≤ x' ∧ x' < x0 + (k + 1)) ↔ (x0 ≤ x' ∧ x' < x0 + k) := by omega
          simp only [hx, false_and, decide_false, Bool.xor_false]
          congr 1
          apply propext
          constructor <;> (rintro ⟨h2, h3, h4, h5, h6, h7⟩; exact ⟨h2, h3, h4, h5, by omega, h7⟩)
      · have hself : Display.cell q.1 (x0 + k) y = Display.cell p.1 (x0 + k) y := by
          rw [ihc]; simp
        simp only [Plot.pixel, Bool.or_eq_true, ihf, hself, hlt, hb, true_and, or_assoc]
    · refine ⟨fun x' y' => ?_, ?_⟩
      · rw [ihc]
        congr 2
        apply propext
        constructor
        · rintro ⟨h2, h3, h4, h5, h6, h7⟩
          exact ⟨h2, h3, h4, h5, by omega, h7⟩
        · rintro ⟨h2, h3, h4, h5, h6, h7⟩
          refine ⟨h2, h3, h4, h5, ?_, h7⟩
          rcases (by omega : x' < x0 + k ∨ x' - x0 = k) with h | h
          · exact h
          · exact absurd (h ▸ h7) hb
      · simp only [ihf, hlt, hb, false_and, or_false, Bool.false_eq_true]

/-- A whole sprite row. -/
theorem Plot.row_spec (b : Byte) (x0 y : Nat) (p : Plot) :
    (∀ x' y', Display.cell (Plot.row p b x0 y).1 x' y' = (Display.cell p.1 x' y' ^^
      decide (y' = y ∧ x' < 64 ∧ y' < 32 ∧ x0 ≤ x' ∧ x' < x0 + 8 ∧ b.getLsbD (7 - (x' - x0)) = true))) ∧
    ((Plot.row p b x0 y).2 = true ↔
      p.2 = true ∨ ∃ c < 8, b.getLsbD (7 - c) = true ∧ Display.cell p.1 (x0 + c) y = true) :=
  Plot.row_upTo b x0 y p 8

/-- The first n rows of a sprite: an in-range cell that a set bit falls on is flipped, the others stay, and the flag
records whether a lit cell was hit. -/
theorem Plot.sprite_spec (m : Memory) (a x0 y0 : Nat) (p : Plot) (n : Nat) :
    (∀ x y, Display.cell (Plot.sprite m a x0 y0 n p).1 x y = (Display.cell p.1 x y ^^
      decide (x < 64 ∧ y < 32 ∧ x0 ≤ x ∧ x < x0 + 8 ∧ y0 ≤ y ∧ y < y0 + n ∧
        (Memory.read m (a + (y - y0))).getLsbD (7 - (x - x0)) = true))) ∧
    ((Plot.sprite m a x0 y0 n p).2 = true ↔ p.2 = true ∨
      ∃ r < n, ∃ c < 8, (Memory.read m (a + r)).getLsbD (7 - c) = true ∧ Display.cell p.1 (x0 + c) (y0 + r) = true) := by
  induction n with
  | zero =>
    refine ⟨fun x y => ?_, by simp [Plot.sprite]⟩
    have : ¬ (x < 64 ∧ y < 32 ∧ x0 ≤ x ∧ x < x0 + 8 ∧ y0 ≤ y ∧ y < y0 + 0 ∧
        (Memory.read m (a + (y - y0))).getLsbD (7 - (x - x0)) = true) := by
      rintro ⟨-, -, -, -, h, h', -⟩; omega
    rw [decide_eq_false this]; simp [Plot.sprite]
  | succ n ih =>
    obtain ⟨ihc, ihf⟩ := ih
    have hstep : Plot.sprite m a x0 y0 (n + 1) p =
        Plot.row (Plot.sprite m a x0 y0 n p) (Memory.read m (a + n)) x0 (y0 + n) := by
      simp [Plot.sprite, List.range_succ]
    rw [hstep]
    generalize Plot.sprite m a x0 y0 n p = q at ihc ihf
    obtain ⟨rc, rf⟩ := Plot.row_spec (Memory.read m (a + n)) x0 (y0 + n) q
    refine ⟨fun x y => ?_, ?_⟩
    · rw [rc, ihc, Bool.xor_assoc]
      congr 1
      by_cases hy : y = y0 + n
      · subst hy
        simp
      · have h1 : y < y0 + (n + 1) ↔ y < y0 + n := by omega
        simp [hy, h1]
    · rw [rf, ihf]
      have hsame : ∀ c, Display.cell q.1 (x0 + c) (y0 + n) = Display.cell p.1 (x0 + c) (y0 + n) := by
        intro c; rw [ihc]; simp
      simp only [hsame]
      constructor
      · rintro ((h | ⟨r, hr, h⟩) | ⟨c, hc, h⟩)
        · exact .inl h
        · exact .inr ⟨r, by omega, h⟩
        · exact .inr ⟨n, by omega, c, hc, h⟩
      · rintro (h | ⟨r, hr, h⟩)
        · exact .inl (.inl h)
        · rcases Nat.lt_succ_iff_lt_or_eq.1 hr with h' | rfl
          · exact .inl (.inr ⟨r, h', h⟩)
          · exact .inr h

end Sys2Proof.Machine
end

