-- ==== Sys2Proof/Laws/Encoding.lean ====
section
/-! SUPPORT. The fields of a word built in each format of 30_encoding.md R81 are the parts it was built from. -/

namespace Sys2Proof

@[simp] theorem nibbleOf_toFin (x : Reg) : (nibbleOf x).toFin = x := rfl

theorem wordNNN_bit (f : Nibble) (nnn : Addr) (i : Nat) :
    (wordNNN f nnn).getLsbD i = if i < 12 then nnn.getLsbD i else f.getLsbD (i - 12) :=
  BitVec.getLsbD_append

theorem wordXNN_bit (f : Nibble) (x : Reg) (nn : Byte) (i : Nat) :
    (wordXNN f x nn).getLsbD i =
      if i < 8 then nn.getLsbD i
      else if i - 8 < 4 then (nibbleOf x).getLsbD (i - 8) else f.getLsbD (i - 8 - 4) :=
  BitVec.getLsbD_append.trans (by rw [BitVec.getLsbD_append])

theorem wordXYN_bit (f : Nibble) (x y : Reg) (n : Nibble) (i : Nat) :
    (wordXYN f x y n).getLsbD i =
      if i < 4 then n.getLsbD i
      else if i - 4 < 4 then (nibbleOf y).getLsbD (i - 4)
      else if i - 4 - 4 < 4 then (nibbleOf x).getLsbD (i - 4 - 4) else f.getLsbD (i - 4 - 4 - 4) :=
  BitVec.getLsbD_append.trans (by rw [BitVec.getLsbD_append, BitVec.getLsbD_append])

/-- A four-bit field of a word, from its bits. -/
theorem extract_four (w : Word) (n : Nibble) (k : Nat) (h : ∀ i < 4, w.getLsbD (k + i) = n.getLsbD i) :
    w.extractLsb' k 4 = n := by
  ext i hi
  simpa using (h i hi).trans (BitVec.getLsbD_eq_getElem hi)

@[simp] theorem family_wordNNN (f : Nibble) (nnn : Addr) : family (wordNNN f nnn) = f :=
  extract_four _ _ _ fun i _ => by simp [wordNNN_bit]

@[simp] theorem fieldNNN_wordNNN (f : Nibble) (nnn : Addr) : fieldNNN (wordNNN f nnn) = nnn := by
  ext i hi
  simp only [fieldNNN, BitVec.getElem_extractLsb', Nat.zero_add, wordNNN_bit, if_pos hi, BitVec.getLsbD_eq_getElem hi]

@[simp] theorem family_wordXNN (f : Nibble) (x : Reg) (nn : Byte) : family (wordXNN f x nn) = f :=
  extract_four _ _ _ fun i _ => by
    rw [wordXNN_bit, if_neg (by omega), if_neg (by omega)]; congr 1; omega

@[simp] theorem fieldX_wordXNN (f : Nibble) (x : Reg) (nn : Byte) : fieldX (wordXNN f x nn) = x := by
  have h : (wordXNN f x nn).extractLsb' 8 4 = nibbleOf x :=
    extract_four _ _ _ fun i _ => by rw [wordXNN_bit, if_neg (by omega), if_pos (by omega)]; congr 1; omega
  rw [fieldX, h]; rfl

@[simp] theorem fieldNN_wordXNN (f : Nibble) (x : Reg) (nn : Byte) : fieldNN (wordXNN f x nn) = nn := by
  ext i hi
  simp only [fieldNN, BitVec.getElem_extractLsb', Nat.zero_add, wordXNN_bit, if_pos hi, BitVec.getLsbD_eq_getElem hi]

@[simp] theorem family_wordXYN (f : Nibble) (x y : Reg) (n : Nibble) : family (wordXYN f x y n) = f :=
  extract_four _ _ _ fun i _ => by
    rw [wordXYN_bit, if_neg (by omega), if_neg (by omega), if_neg (by omega)]; congr 1; omega

@[simp] theorem fieldX_wordXYN (f : Nibble) (x y : Reg) (n : Nibble) : fieldX (wordXYN f x y n) = x := by
  have h : (wordXYN f x y n).extractLsb' 8 4 = nibbleOf x :=
    extract_four _ _ _ fun i _ => by
      rw [wordXYN_bit, if_neg (by omega), if_neg (by omega), if_pos (by omega)]; congr 1; omega
  rw [fieldX, h]; rfl

@[simp] theorem fieldY_wordXYN (f : Nibble) (x y : Reg) (n : Nibble) : fieldY (wordXYN f x y n) = y := by
  have h : (wordXYN f x y n).extractLsb' 4 4 = nibbleOf y :=
    extract_four _ _ _ fun i _ => by rw [wordXYN_bit, if_neg (by omega), if_pos (by omega)]; congr 1; omega
  rw [fieldY, h]; rfl

@[simp] theorem fieldN_wordXYN (f : Nibble) (x y : Reg) (n : Nibble) : fieldN (wordXYN f x y n) = n :=
  extract_four _ _ _ fun i hi => by simp [wordXYN_bit, hi]

end Sys2Proof
end

