-- ==== Sys2Proof/Laws/Memory.lean ====
section
/-! SUPPORT. Memory: every write keeps the canonical form, a read after a write, and the bytes a write leaves alone. -/

namespace Sys2Proof.Machine.Memory

theorem wrapAddr_lt (a : Nat) : wrapAddr a < 4096 := Nat.mod_lt _ (by decide)

theorem wf_nil : wf [] = true := rfl

theorem wf_cons_iff (k : Nat) (b : Byte) (m : Memory) :
    wf ((k, b) :: m) = true ↔ k < 4096 ∧ b ≠ unlistedByte k ∧ (∀ c ∈ m, k < c.1) ∧ wf m = true := by
  simp [wf, and_assoc]

/-- An address below every listed one reads as an unlisted byte. -/
theorem byteAt_below (m : Memory) (a : Nat) (h : ∀ c ∈ m, a < c.1) : byteAt m a = unlistedByte a := by
  induction m with
  | nil => rfl
  | cons c m ih =>
    obtain ⟨k, b⟩ := c
    have hk : a < k := h (k, b) (by simp)
    simp only [byteAt, if_neg (Nat.ne_of_gt hk)]
    exact ih fun c hc => h c (by simp [hc])

/-- Every address of the memory after `setByte` is an old one or the one written. -/
theorem mem_setByte (m : Memory) (a : Nat) (b : Byte) (c : Host.Cell) (h : c ∈ setByte m a b) : c ∈ m ∨ c.1 = a := by
  induction m with
  | nil =>
    simp only [setByte] at h
    split at h <;> simp_all
  | cons d m ih =>
    obtain ⟨k, e⟩ := d
    simp only [setByte] at h
    split_ifs at h <;> simp only [List.mem_cons] at h ⊢
    · exact .inl h
    · rcases h with rfl | h
      · exact .inr rfl
      · exact .inl h
    · exact .inl (.inr h)
    · rcases h with rfl | h
      · exact .inr rfl
      · exact .inl (.inr h)
    · rcases h with rfl | h
      · exact .inl (.inl rfl)
      · rcases ih h with h | h
        · exact .inl (.inr h)
        · exact .inr h

theorem setByte_wf (m : Memory) (a : Nat) (b : Byte) (ha : a < 4096) (hm : wf m = true) : wf (setByte m a b) = true := by
  induction m with
  | nil =>
    simp only [setByte]
    split
    · rfl
    · next hb => exact (wf_cons_iff a b []).2 ⟨ha, hb, by simp, rfl⟩
  | cons c m ih =>
    obtain ⟨k, e⟩ := c
    obtain ⟨hk, he, hlow, hrest⟩ := (wf_cons_iff k e m).1 hm
    simp only [setByte]
    split_ifs with hlt hb heq hb
    · exact hm
    · refine (wf_cons_iff _ _ _).2 ⟨ha, hb, ?_, hm⟩
      intro c hc
      rcases List.mem_cons.1 hc with rfl | hc
      · exact hlt
      · exact hlt.trans (hlow c hc)
    · exact hrest
    · exact (wf_cons_iff _ _ _).2 ⟨ha, hb, heq ▸ hlow, hrest⟩
    · refine (wf_cons_iff _ _ _).2 ⟨hk, he, ?_, ih hrest⟩
      intro c hc
      rcases mem_setByte m a b c hc with h | h
      · exact hlow c h
      · omega

theorem byteAt_setByte (m : Memory) (a k : Nat) (b : Byte) (hm : wf m = true) :
    byteAt (setByte m a b) k = if k = a then b else byteAt m k := by
  induction m with
  | nil =>
    simp only [setByte, byteAt]
    split_ifs with hb hk hk
    · simp [byteAt, hk, hb]
    · simp [byteAt]
    · simp [byteAt, hk]
    · simp [byteAt, Ne.symm hk]
  | cons c m ih =>
    obtain ⟨j, e⟩ := c
    obtain ⟨hj, he, hlow, hrest⟩ := (wf_cons_iff j e m).1 hm
    have hbelow : ∀ x, x < j → byteAt m x = unlistedByte x :=
      fun x hx => byteAt_below m x fun c hc => hx.trans (hlow c hc)
    simp only [setByte]
    split_ifs with hlt hb hk hk heq hb hk hk hk
    · subst hk; simp [byteAt, Nat.ne_of_gt hlt, hbelow k hlt, hb]
    · rfl
    · simp [byteAt, hk]
    · simp [byteAt, Ne.symm hk]
    · subst heq hk; rw [byteAt_below m k hlow, hb]
    · subst heq; simp [byteAt, Ne.symm hk]
    · subst heq hk; simp [byteAt]
    · subst heq; simp [byteAt, Ne.symm hk]
    · subst hk; simp [byteAt, Ne.symm heq, ih hrest]
    · simp [byteAt, ih hrest, hk]

/-! ### MemRead and MemWrite (addresses mod 4096) -/

theorem write_wf (m : Memory) (a : Nat) (b : Byte) (hm : wf m = true) : wf (write m a b) = true :=
  setByte_wf m _ b (wrapAddr_lt a) hm

theorem read_write (m : Memory) (a k : Nat) (b : Byte) (hm : wf m = true) :
    read (write m a b) k = if wrapAddr k = wrapAddr a then b else read m k :=
  byteAt_setByte m _ _ b hm

theorem writeBytes_wf (m : Memory) (a : Nat) (bs : List Byte) (hm : wf m = true) : wf (writeBytes m a bs) = true := by
  induction bs generalizing m a with
  | nil => exact hm
  | cons b bs ih => exact ih _ _ (write_wf m a b hm)

/-- Everything `writeBytes` does: a byte at a + j is the j-th of the list, whichever j that is (the last one, should
several fall together), and every other address reads as before. -/
theorem read_writeBytes_outside (m : Memory) (a k : Nat) (bs : List Byte) (hm : wf m = true)
    (h : ∀ j < bs.length, wrapAddr k ≠ wrapAddr (a + j)) : read (writeBytes m a bs) k = read m k := by
  induction bs generalizing m a with
  | nil => rfl
  | cons b bs ih =>
    have h0 : wrapAddr k ≠ wrapAddr a := by simpa using h 0 (by simp)
    rw [writeBytes, ih _ _ (write_wf m a b hm), read_write m a k b hm, if_neg h0]
    intro j hj
    have := h (j + 1) (by simpa using hj)
    rwa [show a + 1 + j = a + (j + 1) by omega]

theorem read_writeBytes_inside (m : Memory) (a : Nat) (bs : List Byte) (hm : wf m = true) (hl : bs.length ≤ 4096)
    (j : Nat) (hj : j < bs.length) : read (writeBytes m a bs) (a + j) = bs[j] := by
  induction bs generalizing m a j with
  | nil => simp at hj
  | cons b bs ih =>
    simp only [List.length_cons] at hl hj
    cases j with
    | zero =>
      rw [writeBytes, read_writeBytes_outside _ _ _ _ (write_wf m a b hm)]
      · simp [read_write m a a b hm]
      · intro i hi
        simp only [wrapAddr]
        omega
    | succ j =>
      have := ih (write m a b) (a + 1) (write_wf m a b hm) (by omega) j (by omega)
      rw [writeBytes, show a + (j + 1) = a + 1 + j by omega, this]
      rfl

end Sys2Proof.Machine.Memory
end

