-- ==== Sys2Proof/Laws/PerInstr.lean ====
section
/-! SUPPORT. A fact of every instruction's encoding, one lemma per constructor: the top four bits of its word are the
family 30_encoding.md R83 gives its row. -/

namespace Sys2Proof.Laws.Family

/-- The family column of R83. -/
def ofInstr : Instr → Nibble
  | .cls => 0x0
  | .ret => 0x0
  | .jp _ => 0x1
  | .call _ => 0x2
  | .seByte _ _ => 0x3
  | .sneByte _ _ => 0x4
  | .seReg _ _ => 0x5
  | .ldByte _ _ => 0x6
  | .addByte _ _ => 0x7
  | .ldReg _ _ => 0x8
  | .orReg _ _ => 0x8
  | .andReg _ _ => 0x8
  | .xorReg _ _ => 0x8
  | .addReg _ _ => 0x8
  | .sub _ _ => 0x8
  | .shr _ _ => 0x8
  | .subn _ _ => 0x8
  | .shl _ _ => 0x8
  | .sneReg _ _ => 0x9
  | .ldI _ => 0xA
  | .jpV0 _ => 0xB
  | .rnd _ _ => 0xC
  | .drw _ _ _ => 0xD
  | .skp _ => 0xE
  | .sknp _ => 0xE
  | .ldVxDt _ => 0xF
  | .ldVxK _ => 0xF
  | .ldDtVx _ => 0xF
  | .ldStVx _ => 0xF
  | .addI _ => 0xF
  | .ldF _ => 0xF
  | .ldB _ => 0xF
  | .ldMemVx _ => 0xF
  | .ldVxMem _ => 0xF

/-- The word of the instruction carries the family of its row. -/
def Statement (i : Instr) : Prop := Sys2Proof.family (encode i) = ofInstr i

theorem cls : Statement .cls := family_wordXNN _ _ _
theorem ret : Statement .ret := family_wordXNN _ _ _
theorem jp (nnn : Addr) : Statement (.jp nnn) := family_wordNNN _ _
theorem call (nnn : Addr) : Statement (.call nnn) := family_wordNNN _ _
theorem seByte (x : Reg) (nn : Byte) : Statement (.seByte x nn) := family_wordXNN _ _ _
theorem sneByte (x : Reg) (nn : Byte) : Statement (.sneByte x nn) := family_wordXNN _ _ _
theorem seReg (x y : Reg) : Statement (.seReg x y) := family_wordXYN _ _ _ _
theorem ldByte (x : Reg) (nn : Byte) : Statement (.ldByte x nn) := family_wordXNN _ _ _
theorem addByte (x : Reg) (nn : Byte) : Statement (.addByte x nn) := family_wordXNN _ _ _
theorem ldReg (x y : Reg) : Statement (.ldReg x y) := family_wordXYN _ _ _ _
theorem orReg (x y : Reg) : Statement (.orReg x y) := family_wordXYN _ _ _ _
theorem andReg (x y : Reg) : Statement (.andReg x y) := family_wordXYN _ _ _ _
theorem xorReg (x y : Reg) : Statement (.xorReg x y) := family_wordXYN _ _ _ _
theorem addReg (x y : Reg) : Statement (.addReg x y) := family_wordXYN _ _ _ _
theorem sub (x y : Reg) : Statement (.sub x y) := family_wordXYN _ _ _ _
theorem shr (x y : Reg) : Statement (.shr x y) := family_wordXYN _ _ _ _
theorem subn (x y : Reg) : Statement (.subn x y) := family_wordXYN _ _ _ _
theorem shl (x y : Reg) : Statement (.shl x y) := family_wordXYN _ _ _ _
theorem sneReg (x y : Reg) : Statement (.sneReg x y) := family_wordXYN _ _ _ _
theorem ldI (nnn : Addr) : Statement (.ldI nnn) := family_wordNNN _ _
theorem jpV0 (nnn : Addr) : Statement (.jpV0 nnn) := family_wordNNN _ _
theorem rnd (x : Reg) (nn : Byte) : Statement (.rnd x nn) := family_wordXNN _ _ _
theorem drw (x y : Reg) (n : Nat) : Statement (.drw x y n) := family_wordXYN _ _ _ _
theorem skp (x : Reg) : Statement (.skp x) := family_wordXNN _ _ _
theorem sknp (x : Reg) : Statement (.sknp x) := family_wordXNN _ _ _
theorem ldVxDt (x : Reg) : Statement (.ldVxDt x) := family_wordXNN _ _ _
theorem ldVxK (x : Reg) : Statement (.ldVxK x) := family_wordXNN _ _ _
theorem ldDtVx (x : Reg) : Statement (.ldDtVx x) := family_wordXNN _ _ _
theorem ldStVx (x : Reg) : Statement (.ldStVx x) := family_wordXNN _ _ _
theorem addI (x : Reg) : Statement (.addI x) := family_wordXNN _ _ _
theorem ldF (x : Reg) : Statement (.ldF x) := family_wordXNN _ _ _
theorem ldB (x : Reg) : Statement (.ldB x) := family_wordXNN _ _ _
theorem ldMemVx (x : Reg) : Statement (.ldMemVx x) := family_wordXNN _ _ _
theorem ldVxMem (x : Reg) : Statement (.ldVxMem x) := family_wordXNN _ _ _

end Sys2Proof.Laws.Family
end

