-- ==== Sys2Proof/Laws/Step.lean ====
section
/-! SUPPORT. What a step can do, said once, and the host operations that write memory. -/

namespace Sys2Proof.Machine

theorem State.endStep_ok (s : State) (h : s.reply = .ok) : s.endStep = s.tick := if_pos h

theorem State.endStep_error (s : State) (h : s.reply ≠ .ok) : s.endStep = s := if_neg h

/-- The end of a step touches the two timers only. -/
theorem State.endStep_frame (s : State) :
    s.endStep = { s with dt := s.endStep.dt, st := s.endStep.st } := by
  unfold State.endStep
  split <;> rfl

@[simp] theorem State.endStep_v (s : State) : s.endStep.v = s.v := by rw [State.endStep_frame]
@[simp] theorem State.endStep_i (s : State) : s.endStep.i = s.i := by rw [State.endStep_frame]
@[simp] theorem State.endStep_pc (s : State) : s.endStep.pc = s.pc := by rw [State.endStep_frame]
@[simp] theorem State.endStep_sp (s : State) : s.endStep.sp = s.sp := by rw [State.endStep_frame]
@[simp] theorem State.endStep_stack (s : State) : s.endStep.stack = s.stack := by rw [State.endStep_frame]
@[simp] theorem State.endStep_keys (s : State) : s.endStep.keys = s.keys := by rw [State.endStep_frame]
@[simp] theorem State.endStep_disp (s : State) : s.endStep.disp = s.disp := by rw [State.endStep_frame]
@[simp] theorem State.endStep_mem (s : State) : s.endStep.mem = s.mem := by rw [State.endStep_frame]
@[simp] theorem State.endStep_ir (s : State) : s.endStep.ir = s.ir := by rw [State.endStep_frame]
@[simp] theorem State.endStep_reply (s : State) : s.endStep.reply = s.reply := by rw [State.endStep_frame]
@[simp] theorem State.endStep_draws (s : State) : s.endStep.draws = s.draws := by rw [State.endStep_frame]
@[simp] theorem State.endStep_cfg (s : State) : s.endStep.cfg = s.cfg := by rw [State.endStep_frame]

theorem State.endStep_dt (s : State) : s.endStep.dt = if s.reply = .ok then decTimer s.dt else s.dt := by
  unfold State.endStep
  split <;> rfl

theorem State.endStep_st (s : State) : s.endStep.st = if s.reply = .ok then decTimer s.st else s.st := by
  unfold State.endStep
  split <;> rfl

/-- A timer's tick on the numbers. -/
theorem decTimer_toNat (b : Byte) : (decTimer b).toNat = b.toNat - 1 := by
  unfold decTimer
  split
  · next h => subst h; rfl
  · next h =>
    have : b.toNat ≠ 0 := fun h' => h (BitVec.eq_of_toNat_eq (by simpa using h'))
    bv_omega

/-- Everything a step that answers a next state did: the word was unmatched, or its instruction ran on the state whose
IR holds it; then the end of the step. -/
theorem step_cases (s t : State) (h : step s = .next t) :
    (∃ e, decodeWord s.fetchWord = .error e ∧ t = (s.latch s.fetchWord).unmatched.endStep) ∨
    (∃ i u, decodeWord s.fetchWord = .ok i ∧ exec i (s.latch s.fetchWord) = .next u ∧ t = u.endStep) := by
  unfold step at h
  split at h
  · next e he => exact .inl ⟨e, he, by simpa using h.symm⟩
  · next i hi =>
    split at h
    · next u hx => exact .inr ⟨i, u, hi, hx, by cases h; rfl⟩
    · cases h
    · cases h

/-! ### Host operations -/

@[simp] theorem State.hostReset_pc (s : State) : s.hostReset.pc = 0x0200 := rfl
@[simp] theorem State.hostReset_i (s : State) : s.hostReset.i = 0 := rfl
@[simp] theorem State.hostReset_sp (s : State) : s.hostReset.sp = 0 := rfl
@[simp] theorem State.hostReset_dt (s : State) : s.hostReset.dt = s.cfg.dtInit := rfl
@[simp] theorem State.hostReset_st (s : State) : s.hostReset.st = s.cfg.stInit := rfl
@[simp] theorem State.hostReset_disp (s : State) : s.hostReset.disp = blankDisplay := rfl
@[simp] theorem State.hostReset_mem (s : State) :
    s.hostReset.mem = Memory.writeBytes s.mem 0 s.cfg.fontBytes := rfl
@[simp] theorem State.hostReset_ir (s : State) : s.hostReset.ir = s.ir := rfl
@[simp] theorem State.hostReset_reply (s : State) : s.hostReset.reply = .ok := rfl
@[simp] theorem State.hostReset_draws (s : State) : s.hostReset.draws = s.draws := rfl
@[simp] theorem State.hostReset_cfg (s : State) : s.hostReset.cfg = s.cfg := rfl

theorem fontBytes_length (c : Config) : c.fontBytes.length = 80 := by
  simp [Config.fontBytes]

theorem State.hostReset_wf (s : State) (h : Memory.wf s.mem = true) : Memory.wf s.hostReset.mem = true := by
  rw [State.hostReset_mem]
  exact Memory.writeBytes_wf _ _ _ h

theorem State.load_wf (s : State) (image : List Byte) (h : Memory.wf s.mem = true) :
    Memory.wf (s.load image).mem = true := by
  unfold State.load
  split
  · exact h
  · exact Memory.writeBytes_wf _ _ _ (s.hostReset_wf h)

theorem State.withFetchWord_wf (s : State) (nbits w : Nat) (h : Memory.wf s.mem = true) :
    Memory.wf (s.withFetchWord nbits w).mem = true :=
  Memory.writeBytes_wf _ _ _ h

end Sys2Proof.Machine
end

