-- ==== Sys2Proof/Tests/Slice0.lean ====
section
/-! SUPPORT. Tests of the model. Expected values come from the spec: words from the encodings of 30_encoding.md R81 and
R83, results from the vectors of 95_test_vectors.md §1 and §2 (the rule is named at each). -/

namespace Sys2Proof.Tests

open Sys2Proof.Machine

/-! ### Well-formed terms -/

theorem test_wellFormed_drw_fifteen_rows : (Instr.drw 1 2 15).wellFormed = true := by decide
theorem test_wellFormed_refuses_sixteen_rows : (Instr.drw 1 2 16).wellFormed = false := by decide

/-! ### Decoding: one word per instruction, written out bit by bit as family, X, Y, N (R83) -/

theorem test_decode_cls : decodeTableWord 16 0b0000_0000_1110_0000 = some .cls := by decide
theorem test_decode_cls_ignores_bits_11_8 : decodeTableWord 16 0b0000_0001_1110_0000 = some .cls := by decide
theorem test_decode_ret : decodeTableWord 16 0b0000_0000_1110_1110 = some .ret := by decide
theorem test_decode_jp : decodeTableWord 16 0b0001_0010_0011_0100 = some (.jp 0x234) := by decide
theorem test_decode_call : decodeTableWord 16 0b0010_0011_0000_0000 = some (.call 0x300) := by decide
theorem test_decode_seByte : decodeTableWord 16 0b0011_0011_0001_0010 = some (.seByte 3 0x12) := by decide
theorem test_decode_sneByte : decodeTableWord 16 0b0100_0011_0001_0010 = some (.sneByte 3 0x12) := by decide
theorem test_decode_seReg : decodeTableWord 16 0b0101_0001_0010_0000 = some (.seReg 1 2) := by decide
theorem test_decode_seReg_ignores_n : decodeTableWord 16 0b0101_0001_0010_0001 = some (.seReg 1 2) := by decide
theorem test_decode_ldByte : decodeTableWord 16 0b0110_1010_0100_0010 = some (.ldByte 10 0x42) := by decide
theorem test_decode_addByte : decodeTableWord 16 0b0111_0001_0010_0000 = some (.addByte 1 0x20) := by decide
theorem test_decode_ldReg : decodeTableWord 16 0b1000_0001_0010_0000 = some (.ldReg 1 2) := by decide
theorem test_decode_orReg : decodeTableWord 16 0b1000_0001_0010_0001 = some (.orReg 1 2) := by decide
theorem test_decode_andReg : decodeTableWord 16 0b1000_0001_0010_0010 = some (.andReg 1 2) := by decide
theorem test_decode_xorReg : decodeTableWord 16 0b1000_0001_0010_0011 = some (.xorReg 1 2) := by decide
theorem test_decode_addReg : decodeTableWord 16 0b1000_0001_0010_0100 = some (.addReg 1 2) := by decide
theorem test_decode_sub : decodeTableWord 16 0b1000_0001_0010_0101 = some (.sub 1 2) := by decide
theorem test_decode_shr : decodeTableWord 16 0b1000_0001_1111_0110 = some (.shr 1 15) := by decide
theorem test_decode_subn : decodeTableWord 16 0b1000_0001_0010_0111 = some (.subn 1 2) := by decide
theorem test_decode_shl : decodeTableWord 16 0b1000_0001_0000_1110 = some (.shl 1 0) := by decide
theorem test_decode_sneReg : decodeTableWord 16 0b1001_0001_0010_1111 = some (.sneReg 1 2) := by decide
theorem test_decode_ldI : decodeTableWord 16 0b1010_0010_1111_0000 = some (.ldI 0x2F0) := by decide
theorem test_decode_jpV0 : decodeTableWord 16 0b1011_0011_0000_0000 = some (.jpV0 0x300) := by decide
theorem test_decode_rnd : decodeTableWord 16 0b1100_0011_0000_1111 = some (.rnd 3 0x0F) := by decide
theorem test_decode_drw : decodeTableWord 16 0b1101_0000_0001_1111 = some (.drw 0 1 15) := by decide
theorem test_decode_skp : decodeTableWord 16 0b1110_0110_1001_1110 = some (.skp 6) := by decide
theorem test_decode_sknp : decodeTableWord 16 0b1110_0110_1010_0001 = some (.sknp 6) := by decide
theorem test_decode_ldVxDt : decodeTableWord 16 0b1111_0011_0000_0111 = some (.ldVxDt 3) := by decide
theorem test_decode_ldVxK : decodeTableWord 16 0b1111_0010_0000_1010 = some (.ldVxK 2) := by decide
theorem test_decode_ldDtVx : decodeTableWord 16 0b1111_0001_0001_0101 = some (.ldDtVx 1) := by decide
theorem test_decode_ldStVx : decodeTableWord 16 0b1111_0001_0001_1000 = some (.ldStVx 1) := by decide
theorem test_decode_addI : decodeTableWord 16 0b1111_0010_0001_1110 = some (.addI 2) := by decide
theorem test_decode_ldF : decodeTableWord 16 0b1111_0101_0010_1001 = some (.ldF 5) := by decide
theorem test_decode_ldB : decodeTableWord 16 0b1111_0011_0011_0011 = some (.ldB 3) := by decide
theorem test_decode_ldMemVx : decodeTableWord 16 0b1111_0010_0101_0101 = some (.ldMemVx 2) := by decide
theorem test_decode_ldVxMem : decodeTableWord 16 0b1111_0010_0110_0101 = some (.ldVxMem 2) := by decide

/-- R86: one unmatched word of each class is refused under its own name. -/
theorem test_decode_unmatched :
    decodeWord 0x0123 = .error .unmatchedFamily0 ∧ decodeWord 0x8128 = .error .unmatchedFamily8 ∧
    decodeWord 0xE1FF = .error .unmatchedFamilyE ∧ decodeWord 0xFFFF = .error .unmatchedFamilyF ∧
    decode [0x12] = .error .truncated := by decide

theorem test_encode_drw : encode (.drw 13 2 5) = 0b1101_1101_0010_0101#16 := by decide

/-! ### One step on a small state -/

/-- The common start of 95_test_vectors.md §2. -/
def start : State := State.reset

/-- The state with V[x] = b for each pair. -/
def withRegs (s : State) (l : List (Reg × Byte)) : State := l.foldl (fun s p => s.setReg p.1 p.2) s

/-- What a property of the next state is after one step on the word `w`. -/
def after {α : Type} (s : State) (w : Nat) (f : State → α) : Option α :=
  match step (s.withFetchWord 16 w) with
  | .next t => some (f t)
  | _ => none

/-- 00EE with SP = 1, stack[0] = 0x0200 (R101). -/
theorem test_ret : after ((start.setStack 0 0x200).setSp 1) 0x00EE (fun t => (t.pc, t.sp)) = some (0x202, 0) := by decide
/-- 00EE with SP = 0, stack[15] = 0x0ABC, lenient (R101). -/
theorem test_ret_lenient_underflow :
    after (start.setStack 15 0xABC) 0x00EE (fun t => (t.pc, t.sp)) = some (0xABE, 15) := by decide
/-- 1201, an odd target (R102). -/
theorem test_jp_odd : after start 0x1201 (fun t => t.pc) = some 0x201 := by decide
/-- 2300 with SP = 0 (R103). -/
theorem test_call : after start 0x2300 (fun t => (t.pc, t.sp, t.stack[0])) = some (0x300, 1, 0x200) := by decide
/-- 2300 with SP = 16, lenient (R103). -/
theorem test_call_lenient_overflow :
    after (start.setSp 16) 0x2300 (fun t => (t.pc, t.sp, t.stack[0])) = some (0x300, 17, 0x200) := by decide
/-- 3312 with V3 = 0x12 (R104). -/
theorem test_seByte_taken : after (withRegs start [(3, 0x12)]) 0x3312 (fun t => t.pc) = some 0x204 := by decide
/-- 3000 at PC = 0xFFFE: PC wraps mod 2^16 (R104, R24). -/
theorem test_seByte_pc_wraps : after (start.setPc 0xFFFE) 0x3000 (fun t => t.pc) = some 0x0002 := by decide
/-- 4312 with V3 = 0x12 (R105). -/
theorem test_sneByte_not_taken : after (withRegs start [(3, 0x12)]) 0x4312 (fun t => t.pc) = some 0x202 := by decide
/-- 4300 with V3 = 0x12 (R105). -/
theorem test_sneByte_taken : after (withRegs start [(3, 0x12)]) 0x4300 (fun t => t.pc) = some 0x204 := by decide
/-- 5120 with V1 = V2 = 7 (R106). -/
theorem test_seReg_taken : after (withRegs start [(1, 7), (2, 7)]) 0x5120 (fun t => t.pc) = some 0x204 := by decide
/-- 5121 with V1 = 7, V2 = 8 (R106). -/
theorem test_seReg_not_taken : after (withRegs start [(1, 7), (2, 8)]) 0x5121 (fun t => t.pc) = some 0x202 := by decide
/-- 9120 with V1 = 7, V2 = 8 (R107). -/
theorem test_sneReg_taken : after (withRegs start [(1, 7), (2, 8)]) 0x9120 (fun t => t.pc) = some 0x204 := by decide
/-- 9110 (R107). -/
theorem test_sneReg_same_register : after (withRegs start [(1, 7)]) 0x9110 (fun t => t.pc) = some 0x202 := by decide
/-- BFFF with V0 = 0xFF, the largest target (R108). -/
theorem test_jpV0_largest : after (withRegs start [(0, 0xFF)]) 0xBFFF (fun t => t.pc) = some 0x1100 := by decide

/-- 6F07 (R121). -/
theorem test_ldByte_vf : after start 0x6F07 (fun t => (t.reg 15, t.pc)) = some (0x07, 0x202) := by decide
/-- 71FF with V1 = 1, VF = 1 (R122). -/
theorem test_addByte_wraps :
    after (withRegs start [(1, 1), (15, 1)]) 0x71FF (fun t => (t.reg 1, t.reg 15)) = some (0, 1) := by decide
/-- 8120 with V2 = 9 (R123). -/
theorem test_ldReg : after (withRegs start [(2, 9)]) 0x8120 (fun t => (t.reg 1, t.reg 2)) = some (9, 9) := by decide
/-- 8121 (R124). -/
theorem test_orReg : after (withRegs start [(1, 0x0C), (2, 0x0A)]) 0x8121 (fun t => t.reg 1) = some 0x0E := by decide
/-- 8122 (R125). -/
theorem test_andReg : after (withRegs start [(1, 0x0C), (2, 0x0A)]) 0x8122 (fun t => t.reg 1) = some 0x08 := by decide
/-- 8123, VF kept (R126). -/
theorem test_xorReg :
    after (withRegs start [(1, 0x0C), (2, 0x0A), (15, 5)]) 0x8123 (fun t => (t.reg 1, t.reg 15)) = some (0x06, 5) := by
  decide
/-- 8F14 with VF = 0xF0, V1 = 0x20: the result wins (R127). -/
theorem test_addReg_x_is_vf : after (withRegs start [(15, 0xF0), (1, 0x20)]) 0x8F14 (fun t => t.reg 15) = some 0x10 := by
  decide
/-- 81F4 with V1 = 1, VF = 0xFF: the old VF is the operand (R127). -/
theorem test_addReg_y_is_vf :
    after (withRegs start [(1, 1), (15, 0xFF)]) 0x81F4 (fun t => (t.reg 1, t.reg 15)) = some (0, 1) := by decide
/-- 8125 with V1 = 5, V2 = 10 (R128). -/
theorem test_sub_borrow : after (withRegs start [(1, 5), (2, 10)]) 0x8125 (fun t => (t.reg 1, t.reg 15)) = some (0xFB, 0) := by
  decide
/-- 8125 with equal operands (R128). -/
theorem test_sub_equal : after (withRegs start [(1, 7), (2, 7)]) 0x8125 (fun t => (t.reg 1, t.reg 15)) = some (0, 1) := by
  decide
/-- 8106 with V1 = 5 (R129). -/
theorem test_shr_three_bit_flag : after (withRegs start [(1, 5)]) 0x8106 (fun t => (t.reg 1, t.reg 15)) = some (2, 5) := by
  decide
/-- 81F6 with V1 = 4, VF = 0x33: Y is not read (R129). -/
theorem test_shr_ignores_y :
    after (withRegs start [(1, 4), (15, 0x33)]) 0x81F6 (fun t => (t.reg 1, t.reg 15)) = some (2, 4) := by decide
/-- 8127 with equal operands: VF = 0 (R130). -/
theorem test_subn_equal : after (withRegs start [(1, 7), (2, 7)]) 0x8127 (fun t => (t.reg 1, t.reg 15)) = some (0, 0) := by
  decide
/-- 8127 with V1 = 0, V2 = 0x80: VF = 1 (R130). -/
theorem test_subn_unsigned : after (withRegs start [(2, 0x80)]) 0x8127 (fun t => (t.reg 1, t.reg 15)) = some (0x80, 1) := by
  decide
/-- 810E with V1 = 0x80: the top bit is lost and VF = 0 (R131). -/
theorem test_shl_top_bit : after (withRegs start [(1, 0x80)]) 0x810E (fun t => (t.reg 1, t.reg 15)) = some (0, 0) := by decide
/-- 8F0E with VF = 0x81 (R131). -/
theorem test_shl_x_is_vf : after (withRegs start [(15, 0x81)]) 0x8F0E (fun t => t.reg 15) = some 0x02 := by decide
/-- C30F with RND = 0xB7 (R132). -/
theorem test_rnd_masks : (start.randomInto 0xB7 3 0x0F).reg 3 = 0x07 := by decide
/-- CXNN runs, advances PC and counts the draw (R132). -/
theorem test_rnd_runs : after start 0xC30F (fun t => (t.pc, t.draws)) = some (0x202, 1) := by decide

/-- A2F0 (R150). -/
theorem test_ldI : after start 0xA2F0 (fun t => t.i) = some 0x2F0 := by decide
/-- F21E past 0x0FFF: I is not masked (R151). -/
theorem test_addI_unmasked : after ((withRegs start [(2, 1)]).setI 0xFFF) 0xF21E (fun t => t.i) = some 0x1000 := by decide
/-- F029 with V0 = 0xFF (R152). -/
theorem test_ldF_unmasked : after (withRegs start [(0, 0xFF)]) 0xF029 (fun t => t.i) = some 0x4FB := by decide
/-- F333 with V3 = 123, I = 0x0FFE: the address wraps (R153). -/
theorem test_ldB_wraps :
    after ((withRegs start [(3, 123)]).setI 0xFFE) 0xF333
      (fun t => (t.memRead 0xFFE, t.memRead 0xFFF, t.memRead 0x000, t.i)) = some (1, 2, 3, 0xFFE) := by decide
/-- F255 stores V0..V2 and not V3 (R155). -/
theorem test_ldMemVx :
    after ((withRegs start [(0, 1), (1, 2), (2, 3), (3, 4)]).setI 0x400) 0xF255
      (fun t => (t.memRead 0x400, t.memRead 0x401, t.memRead 0x402, t.memRead 0x403)) = some (1, 2, 3, 0) := by decide
/-- FF65 with I = 0 loads glyph bytes, VF last (R156). -/
theorem test_ldVxMem_glyphs :
    after start 0xFF65 (fun t => (t.reg 0, t.reg 5, t.reg 6, t.reg 15)) = some (0xF0, 0x20, 0x60, 0xF0) := by decide
/-- F265 loads V0..V2 and not V3 (R156). -/
theorem test_ldVxMem_range :
    after ((start.memWrite 0x400 [1, 2, 3, 4]).setI 0x400) 0xF265 (fun t => (t.reg 0, t.reg 2, t.reg 3)) = some (1, 3, 0) := by
  decide

/-- 00E0 with disp(63, 31) = 1 (R170). -/
theorem test_cls :
    after (start.setDisp (Display.flip blankDisplay 63 31)) 0x00E0 (fun t => (Display.cell t.disp 63 31, t.pc)) =
      some (false, 0x202) := by decide
/-- D011 with mem[0x300] = 0xFF, V0 = 62, disp(63, 0) = 1: clipped, with a collision in range (R171, R173). -/
theorem test_drw_clips :
    after ((((withRegs start [(0, 62)]).setI 0x300).memWrite 0x300 [0xFF]).setDisp (Display.flip blankDisplay 63 0)) 0xD011
      (fun t => (t.reg 15, Display.cell t.disp 62 0, Display.cell t.disp 63 0, Display.cell t.disp 0 0)) =
      some (1, true, false, false) := by decide
/-- DF01 with VF = 2 and V0 = 0: X = F takes x0 from the old VF, and Y = 0 takes y0 from V0 (R171). -/
theorem test_drw_x_is_vf :
    after (((withRegs start [(15, 2), (1, 1)]).setI 0x300).memWrite 0x300 [0x80]) 0xDF01
      (fun t => (t.reg 15, Display.cell t.disp 2 0, Display.cell t.disp 3 0)) = some (0, true, false) := by decide

/-- The state with the keys pressed. -/
def withKeys (s : State) (l : List Nat) : State := l.foldl (fun s k => s.setKey k true) s

/-- E09E with keys[3] = 1, V0 = 0x13: the low nibble (R180). -/
theorem test_skp_low_nibble : after (withKeys (withRegs start [(0, 0x13)]) [3]) 0xE09E (fun t => t.pc) = some 0x204 := by decide
/-- E09E with the key released (R180). -/
theorem test_skp_released : after (withRegs start [(0, 5)]) 0xE09E (fun t => t.pc) = some 0x202 := by decide
/-- E0A1 with the key released (R181). -/
theorem test_sknp_released : after (withRegs start [(0, 5)]) 0xE0A1 (fun t => t.pc) = some 0x204 := by decide
/-- E0A1 with keys[5] = 1 (R181). -/
theorem test_sknp_pressed : after (withKeys (withRegs start [(0, 5)]) [5]) 0xE0A1 (fun t => t.pc) = some 0x202 := by decide
/-- F307 with DT = 5 (R182). -/
theorem test_ldVxDt : after (start.setDt 5) 0xF307 (fun t => (t.reg 3, t.dt)) = some (5, 4) := by decide
/-- F20A with no key pressed, DT = 2: a wait that ticks (R183). -/
theorem test_ldVxK_waits : after (start.setDt 2) 0xF20A (fun t => (t.pc, t.reg 2, t.dt)) = some (0x200, 0, 1) := by decide
/-- F20A with keys 3 and 9 pressed (R183). -/
theorem test_ldVxK_lowest : after (withKeys start [9, 3]) 0xF20A (fun t => (t.pc, t.reg 2)) = some (0x202, 3) := by decide
/-- F115 with V1 = 10 (R184). -/
theorem test_ldDtVx : after (withRegs start [(1, 10)]) 0xF115 (fun t => (t.dt, t.st)) = some (9, 0) := by decide
/-- F115 with V1 = 0, DT = 9 (R184). -/
theorem test_ldDtVx_zero : after (start.setDt 9) 0xF115 (fun t => t.dt) = some 0 := by decide
/-- F118 with V1 = 0xFF (R185). -/
theorem test_ldStVx : after (withRegs start [(1, 0xFF)]) 0xF118 (fun t => (t.st, t.dt)) = some (254, 0) := by decide

/-! ### Errors, unmatched words, host operations -/

/-- The start in strict mode. -/
def strictStart : State := { start with cfg := { defaultConfig with strict := true } }

/-- 0123 with DT = 3, ST = 1, lenient: frozen PC, IR latched, both timers tick (R86). -/
theorem test_unmatched_lenient :
    after ((start.setDt 3).setSt 1) 0x0123 (fun t => (t.pc, t.ir, t.dt, t.st, t.reply)) =
      some (0x200, 0x0123, 2, 0, .ok) := by decide
/-- 8128 with DT = 3, strict (R202). -/
theorem test_unmatched_strict :
    after (strictStart.setDt 3) 0x8128 (fun t => (t.pc, t.ir, t.dt, t.reply)) =
      some (0x200, 0x8128, 3, .unknownInstruction) := by decide
/-- 00EE with SP = 0, strict (R204). -/
theorem test_ret_strict_underflow :
    after strictStart 0x00EE (fun t => (t.pc, t.sp, t.reply)) = some (0x200, 0, .stackUnderflow) := by decide
/-- 2300 with SP = 16, strict (R203). -/
theorem test_call_strict_overflow :
    after (strictStart.setSp 16) 0x2300 (fun t => (t.pc, t.sp, t.reply)) = some (0x200, 16, .stackOverflow) := by decide

/-- set_key(5, true), set_key(16, true) (R216). -/
theorem test_setKey :
    (start.setKey 5 true).keyDown 5 = true ∧ (start.setKey 16 true) = start.setReply .invalidKeyIndex := by decide
/-- load([0xFF]) keeps mem[0x201] and mem[0x100] (R231, D17). -/
theorem test_load_keeps_the_rest :
    let t := ((start.memWrite 0x201 [0x77]).memWrite 0x100 [0x66]).load [0xFF]
    t.memRead 0x200 = 0xFF ∧ t.memRead 0x201 = 0x77 ∧ t.memRead 0x100 = 0x66 ∧ t.pc = 0x200 := by decide +kernel
/-- Reset writes the glyph table over what is there (R230); the state right after reset is `State.reset`. -/
theorem test_hostReset_is_reset : ((start.memWrite 0x4F [1]).setReg 3 7).hostReset = State.reset := by decide +kernel

/-! ### Witnesses: for each statement with hypotheses, states and operands that meet them together -/

/-- A state whose next word is `w`. -/
def facing (s : State) (w : Nat) : State := s.withFetchWord 16 w

theorem witness_HostResetLeavesResetValuesFromAnyState :
    Memory.wf (start.memWrite 0x4F [1, 2]).mem = true ∧ (start.memWrite 0x4F [1, 2]).mem ≠ [] := by decide
theorem witness_LoadResetsThenCopiesImage :
    Memory.wf start.mem = true ∧ (List.replicate 3584 (0xAB : Byte)).length ≤ 3584 ∧
      3583 < (List.replicate 3584 (0xAB : Byte)).length :=
  ⟨rfl, by rw [List.length_replicate], by rw [List.length_replicate]; decide⟩
theorem witness_OversizedLoadChangesNothing : 3584 < (List.replicate 3585 (0xAB : Byte)).length := by
  rw [List.length_replicate]; decide
/-- Both clauses at the boundary. -/
theorem witness_SetKeyWritesOneLatchEntry :
    (start.setKey 15 true).reply = .ok ∧ (start.setKey 16 true).reply = .invalidKeyIndex := by decide
theorem witness_MemoriesThatReadAlikeAreEqual :
    let m := Memory.writeBytes [] 0xFFF [7, 8]
    m ≠ [] ∧ Memory.wf m = true ∧ ∀ a, Memory.read m a = Memory.read m a := by
  exact ⟨by decide, by decide, fun _ => rfl⟩
theorem witness_EveryStepKeepsInvariant : ∃ t, (facing (start.setSp 15) 0x2300).Inv ∧ step (facing (start.setSp 15) 0x2300) = .next t :=
  ⟨_, ⟨by decide, by decide⟩, rfl⟩
theorem witness_EveryStepKeepsInvariant_strict :
    ∃ t, (facing (strictStart.setSp 15) 0x2300).Inv ∧ strictStart.cfg.strict = true ∧
      step (facing (strictStart.setSp 15) 0x2300) = .next t ∧ t.sp = 16 :=
  ⟨_, ⟨by decide, by decide⟩, rfl, rfl, rfl⟩
theorem witness_HostOperationsKeepInvariant :
    start.Inv ∧ ∃ t, HostOp.applyAll [.setKey 3 true, .step, .readDisplay] start = .next t :=
  ⟨⟨rfl, by decide⟩, _, rfl⟩
theorem witness_ParametersNeverChange : ∃ t, HostOp.applyAll [.setKey 3 true, .step] strictStart = .next t := ⟨_, rfl⟩
theorem witness_DecodeOfEncodeIsIdentity : (Instr.drw 15 15 15).wellFormed = true ∧ (Instr.drw 0 0 0).wellFormed = true := by
  decide
theorem witness_EncodeOfDecodedKeepsUsedBits :
    decodeWord 0x0FEE = .ok .ret ∧ decodeWord 0x512F = .ok (.seReg 1 2) ∧ decodeWord 0x81F6 = .ok (.shr 1 15) := by decide
theorem witness_StepRunsDecodedInstruction :
    let s := facing (start.setPc 0xFFF) 0xD12F
    decode [s.memRead s.pc.toNat, s.memRead (s.pc.toNat + 1)] = .ok (.drw 1 2 15, []) ∧
      (Instr.drw 1 2 15).wellFormed = true := by decide
theorem witness_StepLatchesBigEndianWord : ∃ t, step (facing (start.setPc 0xFFFF) 0x1234) = .next t ∧ t.ir = 0x1234 :=
  ⟨_, rfl, by decide⟩
theorem witness_StoredFetchWordIsFetched : Memory.wf (start.setPc 0xFFFF).mem = true := by decide
theorem witness_LenientUnmatchedWordFreezesPc :
    decodeWord (facing start 0x8128).fetchWord = .error .unmatchedFamily8 ∧ (facing start 0x8128).cfg.strict = false := by decide
theorem witness_StrictUnmatchedWordIsReported :
    decodeWord (facing strictStart 0xFFFF).fetchWord = .error .unmatchedFamilyF ∧ (facing strictStart 0xFFFF).cfg.strict = true := by
  decide
/-- Each of the three errors. -/
theorem witness_EveryStepErrorIsPrecise :
    (∃ t, step (facing strictStart 0x0000) = .next t ∧ t.reply = .unknownInstruction) ∧
    (∃ t, step (facing (strictStart.setSp 16) 0x2300) = .next t ∧ t.reply = .stackOverflow) ∧
    (∃ t, step (facing strictStart 0x00EE) = .next t ∧ t.reply = .stackUnderflow) :=
  ⟨⟨_, rfl, by decide⟩, ⟨_, rfl, by decide⟩, ⟨_, rfl, by decide⟩⟩
/-- A step that sets DT, one that sets ST, one that sets neither. -/
theorem witness_TimersTickOncePerStep :
    (∃ t, step (facing start 0xF115) = .next t ∧ t.reply = .ok ∧ (facing start 0xF115).nextInstr = some (.ldDtVx 1)) ∧
    (∃ t, step (facing start 0xF118) = .next t ∧ t.reply = .ok ∧ (facing start 0xF118).nextInstr = some (.ldStVx 1)) ∧
    (∃ t, step (facing start 0x0000) = .next t ∧ t.reply = .ok ∧ (facing start 0x0000).nextInstr = none) :=
  ⟨⟨_, rfl, by decide, by decide⟩, ⟨_, rfl, by decide, by decide⟩, ⟨_, rfl, by decide, by decide⟩⟩
theorem witness_TimersReachZeroAndStay :
    let s := facing (start.setDt 1) 0x1200
    (∃ t, HostOp.applyAll (List.replicate 1 .step) s = .next t) ∧
    ∀ j < 1, ∀ u, HostOp.applyAll (List.replicate j .step) s = .next u →
      u.StepsOk ∧ ∀ x, u.nextInstr ≠ some (.ldDtVx x) ∧ u.nextInstr ≠ some (.ldStVx x) := by
  refine ⟨⟨_, rfl⟩, fun j hj u hu => ?_⟩
  obtain rfl : j = 0 := by omega
  cases hu
  have hn : (facing (start.setDt 1) 0x1200).nextInstr = some (.jp 0x200) := by decide
  refine ⟨⟨_, rfl, by decide⟩, fun x => ?_⟩
  rw [hn]
  simp
/-- Steps that report no error and one that does. -/
theorem witness_EveryStepUpdatesPcByTable :
    (∃ t, step (facing start 0xF20A) = .next t ∧ t.reply = .ok) ∧
    (∃ t, step (facing (withKeys start [15]) 0xF20A) = .next t ∧ t.reply = .ok) ∧
    (∃ t, step (facing strictStart 0x0000) = .next t ∧ t.reply ≠ .ok) :=
  ⟨⟨_, rfl, by decide⟩, ⟨_, rfl, by decide⟩, ⟨_, rfl, by decide⟩⟩
/-- Every clause: the five flag writers with X = E, a word with VF as a possible destination, one with none, and no
instruction at all; DRW on a cell that is lit and on one that is not. -/
theorem witness_VfWrittenOnlyByListedInstructions :
    (∃ t, step (facing start 0x8E14) = .next t) ∧ (facing start 0x8E14).nextInstr = some (.addReg 14 1) ∧
    (∃ t, step (facing start 0x8E15) = .next t) ∧ (facing start 0x8E15).nextInstr = some (.sub 14 1) ∧
    (∃ t, step (facing start 0x8E16) = .next t) ∧ (facing start 0x8E16).nextInstr = some (.shr 14 1) ∧
    (∃ t, step (facing start 0x8E1E) = .next t) ∧ (facing start 0x8E1E).nextInstr = some (.shl 14 1) ∧
    (∃ t, step (facing start 0x8E17) = .next t) ∧ (facing start 0x8E17).nextInstr = some (.subn 14 1) ∧
    (∃ t, step (facing start 0x6E01) = .next t) ∧ (facing start 0x6E01).nextInstr = some (.ldByte 14 1) ∧
    (∃ t, step (facing start 0x1F00) = .next t) ∧ (facing start 0x1F00).nextInstr = some (.jp 0xF00) ∧
    (∃ t, step (facing start 0x8128) = .next t) ∧ (facing start 0x8128).nextInstr = none :=
  ⟨⟨_, rfl⟩, by decide, ⟨_, rfl⟩, by decide, ⟨_, rfl⟩, by decide, ⟨_, rfl⟩, by decide, ⟨_, rfl⟩, by decide,
    ⟨_, rfl⟩, by decide, ⟨_, rfl⟩, by decide, ⟨_, rfl⟩, by decide⟩
theorem witness_VfWritten_drw :
    let s := facing ((start.setI 0xFFF).memWrite 0xFFF [0x80]) 0xD001
    let lit := s.setDisp (Display.flip blankDisplay 0 0)
    (∃ t, step lit = .next t) ∧ lit.nextInstr = some (.drw 0 0 1) ∧
      SpriteCovers lit (lit.reg 0).toNat (lit.reg 0).toNat 1 0 0 ∧ Display.cell lit.disp 0 0 = true ∧
    (∃ t, step s = .next t) ∧ s.nextInstr = some (.drw 0 0 1) ∧
      ∀ px py, px < 64 → py < 32 → ¬ Display.cell s.disp px py = true := by
  refine ⟨⟨_, rfl⟩, by decide, ⟨0, 0, by decide⟩, by decide, ⟨_, rfl⟩, by decide, fun px py _ _ h => ?_⟩
  have : Display.cell (facing ((start.setI 0xFFF).memWrite 0xFFF [0x80]) 0xD001).disp px py = false :=
    Display.cell_blank px py
  exact Bool.false_ne_true (this.symm.trans h)
theorem witness_IndexRegisterWrittenOnlyByThree :
    (∃ t, step (facing (start.setI 0xFFFF) 0xF21E) = .next t) ∧ (facing (start.setI 0xFFFF) 0xF21E).nextInstr = some (.addI 2) :=
  ⟨⟨_, rfl⟩, by decide⟩
theorem witness_StackChangedOnlyByCallAndReturn :
    (∃ t, step (facing (start.setSp 0xFFFF) 0x2300) = .next t ∧ t.reply = .ok) ∧
    (∃ t, step (facing start 0x00EE) = .next t ∧ t.reply = .ok) :=
  ⟨⟨_, rfl, by decide⟩, ⟨_, rfl, by decide⟩⟩
theorem witness_KeyLatchIsHostWrittenAndReadByThree :
    (∃ t, HostOp.apply (.setKey 15 true) start = .next t ∧ t.keys ≠ start.keys) ∧
    (∃ t, step (facing start 0x1234) = .next t) ∧ (facing start 0x1234).nextInstr = some (.jp 0x234) :=
  ⟨⟨_, rfl, by decide⟩, ⟨_, rfl⟩, by decide⟩
theorem witness_SoundTimerIsReadByNoInstruction : ∃ t, step (facing (start.setSt 1) 0xF118) = .next t := ⟨_, rfl⟩
/-- A byte that FX33 changes and one that FX55 changes, each the last of its range. -/
theorem witness_MemoryWrittenOnlyByBcdAndDump :
    let s := facing ((withRegs start [(3, 9)]).setI 0xFFE) 0xF333
    let s' := facing ((withRegs start [(3, 9)]).setI 0xFFE) 0xF355
    (s.Inv ∧ ∃ t, step s = .next t ∧ t.memRead 0 ≠ s.memRead 0) ∧
    (s'.Inv ∧ ∃ t, step s' = .next t ∧ t.memRead 1 ≠ s'.memRead 1) :=
  ⟨⟨⟨by decide, by decide⟩, _, rfl, by decide⟩, ⟨⟨by decide, by decide⟩, _, rfl, by decide⟩⟩
/-- Lenient with SP = 0, strict with SP = 1, and strict with SP = 0. -/
theorem witness_ReturnPopsCallSitePlusTwo :
    ¬ (start.cfg.strict = true ∧ start.sp = 0) ∧ ¬ (strictStart.cfg.strict = true ∧ (strictStart.setSp 1).sp = 0) ∧
    strictStart.cfg.strict = true ∧ strictStart.sp = 0 := by decide
/-- Lenient with SP = 16, strict with SP = 15, and strict with SP = 16. -/
theorem witness_CallPushesCallSite :
    ¬ (start.cfg.strict = true ∧ 16 ≤ (start.setSp 16).sp.toNat) ∧
    ¬ (strictStart.cfg.strict = true ∧ 16 ≤ (strictStart.setSp 15).sp.toNat) ∧
    strictStart.cfg.strict = true ∧ 16 ≤ (strictStart.setSp 16).sp.toNat := by decide
theorem witness_ReturnComesBackAfterCall : (start.setSp 15).sp.toNat < 16 := by decide
/-- Equal and unequal operands, as the clauses of the byte and register skips ask. -/
theorem witness_skips :
    start.reg 15 = 0x00 ∧ start.reg 15 ≠ 0xFF ∧ start.reg 0 = start.reg 15 ∧ (withRegs start [(0, 1)]).reg 0 ≠ start.reg 15 := by
  decide
theorem witness_flags_x_not_vf : (14 : Reg) ≠ 15 := by decide
theorem witness_BcdStoresThreeDigits : ((withRegs start [(3, 255)]).setI 0xFFFF).Inv := ⟨by decide, by decide⟩
theorem witness_RegisterDumpStoresRange : (start.setI 0xFFFF).Inv ∧ (15 : Reg) ≤ 15 := ⟨⟨by decide, by decide⟩, by decide⟩
theorem witness_RegisterLoadReadsRange : (0 : Reg) ≤ 0 ∧ (0 : Reg) < 15 := by decide
/-- A covered lit cell at the corner (63, 31), and a blank display on which nothing lit is covered. -/
theorem witness_DrawXorsSpriteAndReportsCollision :
    let s := (((withRegs start [(0, 63), (1, 31)]).setI 0xFFF).memWrite 0xFFF [0x80]).setDisp (Display.flip blankDisplay 63 31)
    SpriteCovers s (s.reg 0).toNat (s.reg 1).toNat 1 63 31 ∧ Display.cell s.disp 63 31 = true ∧
    ¬ SpriteCovers s (s.reg 0).toNat (s.reg 1).toNat 1 62 31 := by
  refine ⟨⟨0, 0, by decide⟩, by decide, ?_⟩
  rintro ⟨r, c, hr, hc, hx, -⟩
  have : (62 : Nat) = 63 + c := hx
  omega
theorem witness_DrawXors_no_collision (x0 y0 n : Nat) :
    ¬ ∃ px py, px < 64 ∧ py < 32 ∧ SpriteCovers start x0 y0 n px py ∧ Display.cell start.disp px py = true := by
  rintro ⟨px, py, -, -, -, h⟩
  have : Display.cell start.disp px py = false := Display.cell_blank px py
  simp [this] at h
/-- The glyph of 0 drawn twice at (0, 0) on a blank display. -/
theorem witness_DrawingTwiceRestoresDisplay :
    ∃ t u, exec (.drw 0 0 5) start = .next t ∧ exec (.drw 0 0 5) t = .next u ∧ t.reg 0 = start.reg 0 ∧
      start.disp = blankDisplay ∧ SpriteCovers start (start.reg 0).toNat (start.reg 0).toNat 5 3 4 :=
  ⟨_, _, rfl, rfl, rfl, rfl, 4, 3, by decide⟩
theorem witness_KeySkipsFollowLatch :
    (withKeys (withRegs start [(0, 0xFF)]) [15]).keys[((withKeys (withRegs start [(0, 0xFF)]) [15]).reg 0).toNat % 16] = true ∧
    start.keys[(start.reg 0).toNat % 16] = false := by decide
theorem witness_KeyWaitTakesLowestKey :
    (withKeys start [15]).keyDown 15 = true ∧ (∀ j, j < 15 → (withKeys start [15]).keyDown j = false) ∧
    (∀ k, start.keyDown k = false) := by decide
theorem witness_TimerMovesCopyBytes : start.reply = .ok := by decide

end Sys2Proof.Tests
end

/-! ### The step, by the instruction at PC -/

namespace Sys2Proof.Machine

theorem State.nextInstr_eq_some_iff (s : State) (i : Instr) :
    s.nextInstr = some i ↔ decodeWord s.fetchWord = .ok i := by
  unfold State.nextInstr
  cases decodeWord s.fetchWord <;> simp [Except.toOption]

theorem State.nextInstr_eq_none_iff (s : State) :
    s.nextInstr = none ↔ ∃ e, decodeWord s.fetchWord = .error e := by
  unfold State.nextInstr
  cases decodeWord s.fetchWord <;> simp [Except.toOption]

theorem step_of_nextInstr_none {s : State} (hn : s.nextInstr = none) :
    step s = .next (s.latch s.fetchWord).unmatched.endStep := by
  obtain ⟨e, he⟩ := s.nextInstr_eq_none_iff.1 hn
  simp only [step, he]

theorem step_of_nextInstr_some {s u : State} {i : Instr} (hn : s.nextInstr = some i)
    (hu : exec i (s.latch s.fetchWord) = .next u) : step s = .next u.endStep := by
  simp only [step, (s.nextInstr_eq_some_iff i).1 hn, hu]

/-- `step_cases` in terms of `State.nextInstr`. -/
theorem step_cases_nextInstr {s t : State} (h : step s = .next t) :
    (s.nextInstr = none ∧ t = (s.latch s.fetchWord).unmatched.endStep) ∨
    (∃ i u, s.nextInstr = some i ∧ exec i (s.latch s.fetchWord) = .next u ∧ t = u.endStep) := by
  rcases step_cases s t h with ⟨e, he, ht⟩ | ⟨i, u, hi, hu, ht⟩
  · exact .inl ⟨s.nextInstr_eq_none_iff.2 ⟨e, he⟩, ht⟩
  · exact .inr ⟨i, u, (s.nextInstr_eq_some_iff i).2 hi, hu, ht⟩

/-- An unmatched word touches the reply only. -/
theorem State.unmatched_frame (s : State) : s.unmatched = s.setReply s.unmatched.reply := by
  unfold State.unmatched
  split <;> rfl

@[simp] theorem State.unmatched_reg (s : State) (r : Reg) : s.unmatched.reg r = s.reg r := by
  rw [s.unmatched_frame, State.setReply_reg]
@[simp] theorem State.unmatched_i (s : State) : s.unmatched.i = s.i := by
  rw [s.unmatched_frame, State.setReply_i]
@[simp] theorem State.unmatched_pc (s : State) : s.unmatched.pc = s.pc := by
  rw [s.unmatched_frame, State.setReply_pc]
@[simp] theorem State.unmatched_keys (s : State) : s.unmatched.keys = s.keys := by
  rw [s.unmatched_frame, State.setReply_keys]

@[simp] theorem State.endStep_reg (s : State) (r : Reg) : s.endStep.reg r = s.reg r := by
  rw [State.reg, State.endStep_v, ← State.reg]

/-! ### The three instructions that act in one of two ways -/

theorem exec_ret_underflow {s : State} (h : s.cfg.strict = true ∧ s.sp = 0) :
    exec .ret s = .next (s.raise .stackUnderflow) := if_pos h

theorem exec_ret_pop {s : State} (h : ¬ (s.cfg.strict = true ∧ s.sp = 0)) :
    exec .ret s = .next ((s.setSp (BitVec.ofNat 16 (popSlot s.sp))).setPc (s.stack[popSlot s.sp] + 2)) :=
  if_neg h

theorem exec_ret_cases {s u : State} (h : exec .ret s = .next u) :
    ((s.cfg.strict = true ∧ s.sp = 0) ∧ u = s.raise .stackUnderflow) ∨
    (¬ (s.cfg.strict = true ∧ s.sp = 0) ∧
      u = (s.setSp (BitVec.ofNat 16 (popSlot s.sp))).setPc (s.stack[popSlot s.sp] + 2)) := by
  by_cases hc : s.cfg.strict = true ∧ s.sp = 0
  · cases (exec_ret_underflow hc).symm.trans h; exact .inl ⟨hc, rfl⟩
  · cases (exec_ret_pop hc).symm.trans h; exact .inr ⟨hc, rfl⟩

theorem exec_call_overflow {nnn : Addr} {s : State} (h : s.cfg.strict = true ∧ 16 ≤ s.sp.toNat) :
    exec (.call nnn) s = .next (s.raise .stackOverflow) := if_pos h

theorem exec_call_push {nnn : Addr} {s : State} (h : ¬ (s.cfg.strict = true ∧ 16 ≤ s.sp.toNat)) :
    exec (.call nnn) s = .next ((s.push s.pc).setPc (extAddr nnn)) := if_neg h

theorem exec_call_cases {nnn : Addr} {s u : State} (h : exec (.call nnn) s = .next u) :
    ((s.cfg.strict = true ∧ 16 ≤ s.sp.toNat) ∧ u = s.raise .stackOverflow) ∨
    (¬ (s.cfg.strict = true ∧ 16 ≤ s.sp.toNat) ∧ u = (s.push s.pc).setPc (extAddr nnn)) := by
  by_cases hc : s.cfg.strict = true ∧ 16 ≤ s.sp.toNat
  · cases (exec_call_overflow hc).symm.trans h; exact .inl ⟨hc, rfl⟩
  · cases (exec_call_push hc).symm.trans h; exact .inr ⟨hc, rfl⟩

theorem exec_ldVxK_cases {x : Reg} {s u : State} (h : exec (.ldVxK x) s = .next u) :
    (s.lowestKey = none ∧ u = s) ∨
    (∃ k, s.lowestKey = some k ∧ u = (s.setReg x (BitVec.ofNat 8 k)).advance) := by
  simp only [exec, execLdVxK] at h
  split at h <;> cases h
  · next hk => exact .inl ⟨hk, rfl⟩
  · next k hk => exact .inr ⟨k, hk, rfl⟩

/-- R205: an instruction that reports an error changes nothing else. -/
theorem exec_error_eq_raise {i : Instr} {s u : State} (h : exec i s = .next u) (hs : s.reply = .ok)
    (hu : u.reply ≠ .ok) : ∃ e, u = s.raise e := by
  cases i with
  | ret =>
    obtain ⟨-, rfl⟩ | ⟨-, rfl⟩ := exec_ret_cases h
    · exact ⟨_, rfl⟩
    · exact absurd hs hu
  | call nnn =>
    obtain ⟨-, rfl⟩ | ⟨-, rfl⟩ := exec_call_cases h
    · exact ⟨_, rfl⟩
    · exact absurd hs hu
  | ldVxK x =>
    obtain ⟨-, rfl⟩ | ⟨k, -, rfl⟩ := exec_ldVxK_cases h <;> exact absurd hs hu
  | _ => cases h; exact absurd hs hu

/-! ### Words from operands -/

theorem extAddr_eq_ofNat (nnn : Addr) : extAddr nnn = BitVec.ofNat 16 nnn.toNat :=
  BitVec.eq_of_toNat_eq (by simp [extAddr])

theorem extByte_eq_ofNat (b : Byte) : extByte b = BitVec.ofNat 16 b.toNat :=
  BitVec.eq_of_toNat_eq (by simp [extByte])

/-- R30: a return pops slot (SP + 15) mod 16. -/
theorem popSlot_val (sp : Word) : (popSlot sp).val = (sp.toNat + 15) % 16 := by
  have : (sp - 1).toNat = (65535 + sp.toNat) % 65536 := by simp [BitVec.toNat_sub]
  simp only [popSlot, stackSlot, this]
  omega

theorem State.lowestKey_eq_none_iff (s : State) : s.lowestKey = none ↔ ∀ k, s.keyDown k = false := by
  simp only [State.lowestKey, List.find?_eq_none, List.mem_range, State.keyDown, Fin.forall_iff]
  refine forall₂_congr fun k hk => ?_
  simp [Vector.getD, hk]

/-! ### I (R28) -/

/-- Settles O28: after the case split of a step, each instruction's update of I is read off; the two that compute it
do so on words. -/
theorem indexRegisterWrittenOnlyByThree : Obligations.IndexRegisterWrittenOnlyByThree := by
  intro s t h
  obtain ⟨hn, rfl⟩ | ⟨i, u, hn, hu, rfl⟩ := step_cases_nextInstr h
  · simp [hn]
  rw [hn, State.endStep_i]
  cases i with
  | ldI nnn => cases hu; exact extAddr_eq_ofNat nnn
  | addI x => cases hu; simp [extByte_eq_ofNat, BitVec.ofNat_add]
  | ldF x => cases hu; simp [extByte_eq_ofNat, BitVec.ofNat_mul]
  | ret => obtain ⟨-, rfl⟩ | ⟨-, rfl⟩ := exec_ret_cases hu <;> rfl
  | call nnn => obtain ⟨-, rfl⟩ | ⟨-, rfl⟩ := exec_call_cases hu <;> rfl
  | ldVxK x => obtain ⟨-, rfl⟩ | ⟨k, -, rfl⟩ := exec_ldVxK_cases hu <;> rfl
  | _ => cases hu; rfl

/-! ### PC (R24) -/

/-- Settles O26: an error keeps PC because it changes the reply only; otherwise each instruction's update of PC is its
row of the table. -/
theorem everyStepUpdatesPcByTable : Obligations.EveryStepUpdatesPcByTable := by
  intro s t h
  obtain ⟨hn, rfl⟩ | ⟨i, u, hn, hu, rfl⟩ := step_cases_nextInstr h
  · simp [hn]
  rw [hn, State.endStep_pc, State.endStep_reply]
  refine ⟨fun herr => ?_, fun hok => ?_⟩
  · obtain ⟨e, rfl⟩ := exec_error_eq_raise hu rfl herr
    rfl
  cases i with
  | jp nnn => cases hu; exact extAddr_eq_ofNat nnn
  | call nnn =>
    obtain ⟨-, rfl⟩ | ⟨-, rfl⟩ := exec_call_cases hu
    · cases hok
    · exact extAddr_eq_ofNat nnn
  | jpV0 nnn => cases hu; simp [extAddr_eq_ofNat, extByte_eq_ofNat, BitVec.ofNat_add]
  | ret =>
    obtain ⟨-, rfl⟩ | ⟨-, rfl⟩ := exec_ret_cases hu
    · cases hok
    · simp [popSlot_val, BitVec.ofNat_add]
  | seByte x nn => cases hu; simp
  | sneByte x nn => cases hu; simp
  | seReg x y => cases hu; simp
  | sneReg x y => cases hu; simp
  | skp x => cases hu; rfl
  | sknp x => cases hu; simp
  | ldVxK x =>
    obtain ⟨hk, rfl⟩ | ⟨k, hk, rfl⟩ := exec_ldVxK_cases hu
    · exact (if_pos ((State.lowestKey_eq_none_iff s).1 hk)).symm
    · refine (if_neg fun hall => ?_).symm
      cases ((State.lowestKey_eq_none_iff s).2 hall).symm.trans hk
  | _ => cases hu; rfl

/-! ### The key latch (R33) -/

theorem exec_keys {i : Instr} {s u : State} (h : exec i s = .next u) : u.keys = s.keys := by
  cases i with
  | ret => obtain ⟨-, rfl⟩ | ⟨-, rfl⟩ := exec_ret_cases h <;> rfl
  | call nnn => obtain ⟨-, rfl⟩ | ⟨-, rfl⟩ := exec_call_cases h <;> rfl
  | ldVxK x => obtain ⟨-, rfl⟩ | ⟨k, -, rfl⟩ := exec_ldVxK_cases h <;> rfl
  | _ => cases h; rfl

theorem step_keys {s t : State} (h : step s = .next t) : t.keys = s.keys := by
  obtain ⟨-, rfl⟩ | ⟨i, u, -, hu, rfl⟩ := step_cases_nextInstr h
  · simp
  · rw [State.endStep_keys, exec_keys hu, State.latch_eq, State.setReply_keys, State.setIr_keys]

/-- Every instruction but the three that read the latch does the same whatever it holds. -/
theorem exec_setKeys {i : Instr} {s u : State} (k : Vector Bool 16) (h : exec i s = .next u)
    (hi : ∀ x, i ≠ .skp x ∧ i ≠ .sknp x ∧ i ≠ .ldVxK x) : exec i (s.setKeys k) = .next (u.setKeys k) := by
  cases i with
  | skp x => exact absurd rfl (hi x).1
  | sknp x => exact absurd rfl (hi x).2.1
  | ldVxK x => exact absurd rfl (hi x).2.2
  | ret =>
    obtain ⟨hc, rfl⟩ | ⟨hc, rfl⟩ := exec_ret_cases h
    · exact exec_ret_underflow hc
    · exact exec_ret_pop hc
  | call nnn =>
    obtain ⟨hc, rfl⟩ | ⟨hc, rfl⟩ := exec_call_cases h
    · exact exec_call_overflow hc
    · exact exec_call_push hc
  | _ => cases h; rfl

theorem State.endStep_setKeys (s : State) (k : Vector Bool 16) : (s.setKeys k).endStep = s.endStep.setKeys k :=
  (apply_ite (State.setKeys · k) (s.reply = .ok) s.tick s).symm

theorem State.unmatched_setKeys (s : State) (k : Vector Bool 16) :
    (s.setKeys k).unmatched = s.unmatched.setKeys k :=
  (apply_ite (State.setKeys · k) (s.cfg.strict = true) (s.raise .unknownInstruction) s).symm

/-- Settles O31: a step keeps the latch, and commutes with setting it unless the word is one of the three. -/
theorem keyLatchIsHostWrittenAndReadByThree : Obligations.KeyLatchIsHostWrittenAndReadByThree := by
  refine ⟨fun op s t h hne => ?_, fun s t k h hi => ?_⟩
  · cases op with
    | setKey index pressed => exact .inl ⟨index, pressed, rfl⟩
    | reset => exact .inr (.inl rfl)
    | load image => exact .inr (.inr ⟨image, rfl⟩)
    | step => exact absurd (step_keys h) hne
    | readDisplay => cases h; exact absurd rfl hne
    | readSnapshot => cases h; exact absurd rfl hne
  · obtain ⟨hn, rfl⟩ | ⟨i, u, hn, hu, rfl⟩ := step_cases_nextInstr h
    · rw [← State.endStep_setKeys, ← State.unmatched_setKeys]
      exact step_of_nextInstr_none (s := s.setKeys k) hn
    · have hx := exec_setKeys k hu fun x => by simpa [hn] using hi x
      rw [← State.endStep_setKeys]
      exact step_of_nextInstr_some (s := s.setKeys k) hn hx

/-! ### VF (R21, R22) -/

theorem flagByte_decide (p : Prop) [Decidable p] : flagByte (decide p) = if p then 1 else 0 := by
  simp [flagByte]

theorem State.setFlagThenReg_vf (s : State) (flag result : Byte) {x : Reg} (hx : x ≠ vf) :
    (s.setFlagThenReg flag x result).reg vf = flag := by
  rw [State.setFlagThenReg_reg, if_neg hx.symm, if_pos rfl]

theorem State.setV_loadRegs_reg (s : State) (x r : Reg) :
    (s.setV (s.loadRegs x)).reg r = if r ≤ x then s.memRead (s.dataAddr r) else s.reg r := by
  simp [State.reg, State.loadRegs]

/-- R171: the sprite engine reports a collision exactly when a cell that the sprite covers was lit. -/
theorem State.drawn_hit_iff (s : State) (x y : Reg) (n : Nat) :
    (s.drawn x y n).2 = true ↔
      ∃ px py, SpriteCovers s (s.reg x).toNat (s.reg y).toNat n px py ∧ Display.cell s.disp px py = true := by
  rw [State.drawn, (Plot.sprite_spec _ _ _ _ _ _).2]
  constructor
  · rintro (h | ⟨r, hr, c, hc, hbit, hlit⟩)
    · cases h
    · exact ⟨_, _, ⟨r, c, hr, hc, rfl, rfl, hbit⟩, hlit⟩
  · rintro ⟨_, _, ⟨r, c, hr, hc, rfl, rfl, hbit⟩, hlit⟩
    exact .inr ⟨r, hr, c, hc, hbit, hlit⟩

theorem exec_drw_vf {x y : Reg} {n : Nat} {s u : State} (h : exec (.drw x y n) s = .next u) :
    u.reg vf = if (s.drawn x y n).2 = true then 1 else 0 := by
  cases h
  exact State.setReg_reg_same _ _ _

/-- Settles O27: the flag writers leave their flag in VF, those with one destination register keep VF when that is not
VF, DRW leaves its collision, and the rest write no register. -/
theorem vfWrittenOnlyByListedInstructions : Obligations.VfWrittenOnlyByListedInstructions := by
  intro s t h
  obtain ⟨hn, rfl⟩ | ⟨i, u, hn, hu, rfl⟩ := step_cases_nextInstr h
  · simp [hn]
  rw [hn, State.endStep_reg]
  cases i with
  | addReg x y | sub x y | subn x y =>
    intro hx
    cases hu
    exact (State.setFlagThenReg_vf _ _ _ hx).trans (flagByte_decide _)
  | shr x y | shl x y => intro hx; cases hu; exact State.setFlagThenReg_vf _ _ _ hx
  | drw x y n =>
    have hvf := exec_drw_vf hu
    have hhit := s.drawn_hit_iff x y n
    exact ⟨fun hc => hvf.trans (if_pos (hhit.2 hc)), fun hc => hvf.trans (if_neg (mt hhit.1 hc))⟩
  | ldByte x | addByte x | ldReg x | orReg x | andReg x | xorReg x | rnd x | ldVxDt x =>
    intro hx
    cases hu
    exact State.setReg_reg_ne _ _ _ _ hx.symm
  | ldVxK x =>
    intro hx
    obtain ⟨-, rfl⟩ | ⟨k, -, rfl⟩ := exec_ldVxK_cases hu
    · rfl
    · exact State.setReg_reg_ne _ _ _ _ hx.symm
  | ldVxMem x =>
    intro hx
    cases hu
    have hlt : ¬ vf ≤ x := fun hle => hx (le_antisymm (Fin.le_last x) hle)
    exact (State.setV_loadRegs_reg _ _ _).trans (if_neg hlt)
  | ret => obtain ⟨-, rfl⟩ | ⟨-, rfl⟩ := exec_ret_cases hu <;> rfl
  | call nnn => obtain ⟨-, rfl⟩ | ⟨-, rfl⟩ := exec_call_cases hu <;> rfl
  | _ => cases hu; rfl

end Sys2Proof.Machine

/-! ### Frames of the updates of control flow (R9) -/

namespace Sys2Proof.Machine

theorem OnlyChanges.refl (l : List Part) (s : State) : OnlyChanges l s s := by
  intro p _
  cases p with
  | mem => exact fun _ => rfl
  | _ => rfl

section

variable {l : List Part} {s t : State}

theorem OnlyChanges.setPc (h : OnlyChanges l s t) (hm : .pc ∈ l) (w : Word) : OnlyChanges l s (t.setPc w) := by
  intro p hp
  cases p with
  | pc => exact absurd hm hp
  | _ => exact h _ hp

theorem OnlyChanges.setSp (h : OnlyChanges l s t) (hm : .sp ∈ l) (w : Word) : OnlyChanges l s (t.setSp w) := by
  intro p hp
  cases p with
  | sp => exact absurd hm hp
  | _ => exact h _ hp

theorem OnlyChanges.setStack (h : OnlyChanges l s t) (hm : .stack ∈ l) (k : Fin 16) (w : Word) :
    OnlyChanges l s (t.setStack k w) := by
  intro p hp
  cases p with
  | stack => exact absurd hm hp
  | _ => exact h _ hp

theorem OnlyChanges.setReply (h : OnlyChanges l s t) (hm : .reply ∈ l) (r : Reply) :
    OnlyChanges l s (t.setReply r) := by
  intro p hp
  cases p with
  | reply => exact absurd hm hp
  | _ => exact h _ hp

end

theorem State.setPc_frame (s : State) (w : Word) : OnlyChanges [.pc] s (s.setPc w) :=
  (OnlyChanges.refl _ s).setPc (by simp) w

/-- R205: an error changes the reply only. -/
theorem State.raise_frame (s : State) (e : Reply) : OnlyChanges [.reply] s (s.raise e) :=
  (OnlyChanges.refl _ s).setReply (by simp) e

/-! ### Control flow (40_flow.md) -/

/-- Settles O37: both jumps set PC and nothing else; the word sum of JP V0 is the numbers' sum mod 2^16. -/
theorem jumpsSetPc : Obligations.JumpsSetPc := by
  intro nnn s
  have hsum : extAddr nnn + extByte (s.reg 0) + 2 = BitVec.ofNat 16 (nnn.toNat + (s.reg 0).toNat + 2) := by
    simp [extAddr_eq_ofNat, extByte_eq_ofNat, BitVec.ofNat_add]
  exact ⟨⟨_, rfl, extAddr_eq_ofNat nnn, s.setPc_frame _⟩, ⟨_, rfl, hsum, s.setPc_frame _⟩⟩

/-- What a skip answers (R24, R100), for a test `c` of the condition `p`. -/
theorem State.skipIf_spec (s : State) {p : Prop} {c : Bool} (hc : c = true ↔ p) :
    (p → (s.skipIf c).pc = s.pc + 4) ∧ (¬ p → (s.skipIf c).pc = s.pc + 2) ∧ OnlyChanges [.pc] s (s.skipIf c) :=
  ⟨fun hp => if_pos (hc.2 hp), fun hp => if_neg (mt hc.1 hp), s.setPc_frame _⟩

/-- SE: skip when the two bytes are equal. -/
theorem State.skipIf_beq_spec (s : State) (a b : Byte) :
    (a = b → (s.skipIf (a == b)).pc = s.pc + 4) ∧ (a ≠ b → (s.skipIf (a == b)).pc = s.pc + 2) ∧
      OnlyChanges [.pc] s (s.skipIf (a == b)) :=
  s.skipIf_spec beq_iff_eq

/-- SNE: skip when the two bytes differ. -/
theorem State.skipIf_bne_spec (s : State) (a b : Byte) :
    (a ≠ b → (s.skipIf (a != b)).pc = s.pc + 4) ∧ (a = b → (s.skipIf (a != b)).pc = s.pc + 2) ∧
      OnlyChanges [.pc] s (s.skipIf (a != b)) := by
  simpa only [not_not] using s.skipIf_spec (p := a ≠ b) bne_iff_ne

/-- Settles O38: the two skips compare V[X] with NN. -/
theorem byteSkipsCompareRegister : Obligations.ByteSkipsCompareRegister := fun _ _ s =>
  ⟨⟨_, rfl, s.skipIf_beq_spec _ _⟩, ⟨_, rfl, s.skipIf_bne_spec _ _⟩⟩

/-- Settles O39: the two skips compare V[X] with V[Y]. -/
theorem registerSkipsCompareRegisters : Obligations.RegisterSkipsCompareRegisters := fun _ _ s =>
  ⟨⟨_, rfl, s.skipIf_beq_spec _ _⟩, ⟨_, rfl, s.skipIf_bne_spec _ _⟩⟩

/-- The slot number that a return leaves in SP, which 16 bits hold. -/
theorem toNat_ofNat_popSlot (sp : Word) : (BitVec.ofNat 16 (popSlot sp)).toNat = (sp.toNat + 15) % 16 := by
  rw [BitVec.toNat_ofNat, popSlot_val]
  omega

/-- Settles O34: a return that is no error pops slot (SP + 15) mod 16; the strict error changes the reply only. -/
theorem returnPopsCallSitePlusTwo : Obligations.ReturnPopsCallSitePlusTwo := by
  intro s
  refine ⟨fun hok => ⟨_, exec_ret_pop hok, ?_, ?_, ?_⟩, fun hstrict hsp =>
    ⟨_, exec_ret_underflow ⟨hstrict, hsp⟩, rfl, s.raise_frame _⟩⟩
  · exact toNat_ofNat_popSlot s.sp
  · simp [popSlot_val]
  · exact ((OnlyChanges.refl _ s).setSp (by simp) _).setPc (by simp) _

/-- Settles O35: a call that is no error writes PC to the one slot SP mod 16; the strict error changes the reply
only. -/
theorem callPushesCallSite : Obligations.CallPushesCallSite := by
  intro nnn s
  refine ⟨fun hok => ⟨_, exec_call_push hok, ?_, fun k hk => ?_, rfl, extAddr_eq_ofNat nnn, ?_⟩, fun hstrict hsp =>
    ⟨_, exec_call_overflow ⟨hstrict, hsp⟩, rfl, s.raise_frame _⟩⟩
  · exact Vector.getElem_set_self (stackSlot s.sp).isLt
  · exact Vector.getElem_set_ne (stackSlot s.sp).isLt k.isLt hk.symm
  · exact (((OnlyChanges.refl _ s).setStack (by simp) _ _).setSp (by simp) _).setPc (by simp) _

end Sys2Proof.Machine

/-! ### Register and ALU instructions (41_alu.md) -/

namespace Sys2Proof.Machine

section

variable {l : List Part} {s t : State}

theorem OnlyChanges.setReg (h : OnlyChanges l s t) (hm : .v ∈ l) (x : Reg) (b : Byte) :
    OnlyChanges l s (t.setReg x b) := by
  intro p hp
  cases p with
  | v => exact absurd hm hp
  | _ => exact h _ hp

theorem OnlyChanges.setDraws (h : OnlyChanges l s t) (hm : .draws ∈ l) (n : Nat) :
    OnlyChanges l s (t.setDraws n) := by
  intro p hp
  cases p with
  | draws => exact absurd hm hp
  | _ => exact h _ hp

end

theorem State.setReg_advance_frame (s : State) (x : Reg) (b : Byte) :
    OnlyChanges [.v, .pc] s (s.setReg x b).advance :=
  ((OnlyChanges.refl _ s).setReg (by simp) x b).setPc (by simp) _

theorem State.setFlagThenReg_advance_frame (s : State) (flag : Byte) (x : Reg) (result : Byte) :
    OnlyChanges [.v, .pc] s (s.setFlagThenReg flag x result).advance :=
  (((OnlyChanges.refl _ s).setReg (by simp) vf flag).setReg (by simp) x result).setPc (by simp) _

theorem State.setReg_regsKept (s : State) (x : Reg) (b : Byte) : RegsKeptExcept [x] s (s.setReg x b) :=
  fun r hr => s.setReg_reg_ne x r b (List.ne_of_not_mem_cons hr)

theorem State.setFlagThenReg_regsKept (s : State) (flag : Byte) (x : Reg) (result : Byte) :
    RegsKeptExcept [x, 15] s (s.setFlagThenReg flag x result) := by
  intro r hr
  have hx : r ≠ x := List.ne_of_not_mem_cons hr
  have hvf : r ≠ vf := List.ne_of_not_mem_cons (List.not_mem_of_not_mem_cons hr)
  rw [State.setFlagThenReg_reg, if_neg hx, if_neg hvf]

/-- What an instruction with one destination register and no flag answers (R121 to R126). -/
theorem State.setReg_advance_spec (s : State) (x : Reg) (b : Byte) :
    (s.setReg x b).advance.reg x = b ∧ (s.setReg x b).advance.pc = s.pc + 2 ∧
      RegsKeptExcept [x] s (s.setReg x b).advance ∧ OnlyChanges [.v, .pc] s (s.setReg x b).advance :=
  ⟨s.setReg_reg_same x b, rfl, s.setReg_regsKept x b, s.setReg_advance_frame x b⟩

/-- What a flag-writing instruction answers (R127 to R131): the result in V[X], also for X = F (D6). -/
theorem State.setFlagThenReg_advance_spec (s : State) (flag : Byte) (x : Reg) (result : Byte) :
    (s.setFlagThenReg flag x result).advance.reg x = result ∧
      (x ≠ 15 → (s.setFlagThenReg flag x result).advance.reg 15 = flag) ∧
      (s.setFlagThenReg flag x result).advance.pc = s.pc + 2 ∧
      RegsKeptExcept [x, 15] s (s.setFlagThenReg flag x result).advance ∧
      OnlyChanges [.v, .pc] s (s.setFlagThenReg flag x result).advance :=
  ⟨State.setReg_reg_same _ x result, s.setFlagThenReg_vf flag result, rfl,
    s.setFlagThenReg_regsKept flag x result, s.setFlagThenReg_advance_frame flag x result⟩

/-- R120: a byte difference is the integer difference mod 2^8. -/
theorem byte_toNat_sub_eq_emod (a b : Byte) : ((a - b).toNat : Int) = ((a.toNat : Int) - (b.toNat : Int)) % 256 := by
  have ha := a.isLt
  have hb := b.isLt
  rw [BitVec.toNat_sub]
  omega

theorem shiftFlag_toNat (a : Byte) : (shiftFlag a).toNat = a.toNat % 8 :=
  (BitVec.toNat_and a 7).trans (Nat.and_two_pow_sub_one_eq_mod a.toNat 3)

theorem byte_toNat_ushiftRight_one (a : Byte) : (a >>> 1).toNat = a.toNat / 2 :=
  Nat.shiftRight_eq_div_pow a.toNat 1

theorem byte_toNat_shiftLeft_one (a : Byte) : (a <<< 1).toNat = a.toNat * 2 % 256 := by
  rw [BitVec.toNat_shiftLeft, Nat.shiftLeft_eq]

/-- Settles O40: all three are one register write; the byte sum of ADD is the sum of the numbers mod 2^8. -/
theorem loadAndAddImmediateWriteVx : Obligations.LoadAndAddImmediateWriteVx := by
  intro x y nn s
  refine ⟨⟨_, rfl, s.setReg_advance_spec x nn⟩, ?_, ⟨_, rfl, s.setReg_advance_spec x (s.reg y)⟩⟩
  obtain ⟨hx, hrest⟩ := s.setReg_advance_spec x (s.reg x + nn)
  exact ⟨_, rfl, hx.symm ▸ BitVec.toNat_add (s.reg x) nn, hrest⟩

/-- Settles O41: each of the three is one register write. -/
theorem logicInstructionsWriteVx : Obligations.LogicInstructionsWriteVx := fun x _ s =>
  ⟨⟨_, rfl, s.setReg_advance_spec x _⟩, ⟨_, rfl, s.setReg_advance_spec x _⟩, ⟨_, rfl, s.setReg_advance_spec x _⟩⟩

/-- Settles O42: the byte sum is the numbers' sum mod 2^8, and the flag its carry. -/
theorem addWritesSumAndCarry : Obligations.AddWritesSumAndCarry := by
  intro x y s
  obtain ⟨hx, hvf, hrest⟩ := s.setFlagThenReg_advance_spec (carryFlag (s.reg x) (s.reg y)) x (s.reg x + s.reg y)
  exact ⟨_, rfl, hx.symm ▸ BitVec.toNat_add (s.reg x) (s.reg y), fun h => (hvf h).trans (flagByte_decide _), hrest⟩

/-- Settles O43: SUB and SUBN write the two byte differences, each with its own flag (D7). -/
theorem subtractionsWriteDifferenceAndFlag : Obligations.SubtractionsWriteDifferenceAndFlag := by
  intro x y s
  constructor
  · obtain ⟨hx, hvf, hrest⟩ :=
      s.setFlagThenReg_advance_spec (noBorrowFlag (s.reg x) (s.reg y)) x (s.reg x - s.reg y)
    exact ⟨_, rfl, hx.symm ▸ byte_toNat_sub_eq_emod _ _, fun h => (hvf h).trans (flagByte_decide _), hrest⟩
  · obtain ⟨hx, hvf, hrest⟩ :=
      s.setFlagThenReg_advance_spec (reverseSubFlag (s.reg x) (s.reg y)) x (s.reg y - s.reg x)
    exact ⟨_, rfl, hx.symm ▸ byte_toNat_sub_eq_emod _ _, fun h => (hvf h).trans (flagByte_decide _), hrest⟩

/-- Settles O44: the shifts halve and double the byte, and both leave its low three bits as flag. -/
theorem shiftsWriteThreeBitFlag : Obligations.ShiftsWriteThreeBitFlag := by
  intro x y s
  constructor
  · obtain ⟨hx, hvf, hrest⟩ := s.setFlagThenReg_advance_spec (shiftFlag (s.reg x)) x (s.reg x >>> 1)
    exact ⟨_, rfl, hx.symm ▸ byte_toNat_ushiftRight_one _, fun h => (hvf h).symm ▸ shiftFlag_toNat _, hrest⟩
  · obtain ⟨hx, hvf, hrest⟩ := s.setFlagThenReg_advance_spec (shiftFlag (s.reg x)) x (s.reg x <<< 1)
    exact ⟨_, rfl, hx.symm ▸ byte_toNat_shiftLeft_one _, fun h => (hvf h).symm ▸ shiftFlag_toNat _, hrest⟩

theorem byte_and_and_not_self (a b : Byte) : a &&& b &&& ~~~b = 0 := by
  rw [BitVec.and_assoc, BitVec.and_not_self]
  exact BitVec.and_zero

/-- Settles O45: one register write of the masked free byte, whatever its value, and one draw counted. -/
theorem randomByteIsMasked : Obligations.RandomByteIsMasked := by
  intro x nn s
  obtain ⟨hx, hpc, hregs, -⟩ := s.setReg_advance_spec x (Config.randomByte s.draws &&& nn)
  have hframe : OnlyChanges [.v, .pc, .draws] s (s.randomInto (Config.randomByte s.draws) x nn) :=
    ((OnlyChanges.refl _ s).setReg (by simp) x _).setPc (by simp) _
  exact ⟨_, rfl, ⟨_, rfl, hx⟩, (congrArg (· &&& ~~~nn) hx).trans (byte_and_and_not_self _ nn), rfl, hpc, hregs,
    hframe.setDraws (by simp) _⟩

end Sys2Proof.Machine

/-! ### Index register and memory instructions (42_index_memory.md) -/

namespace Sys2Proof.Machine

section

variable {l : List Part} {s t : State}

theorem OnlyChanges.setI (h : OnlyChanges l s t) (hm : .i ∈ l) (w : Word) : OnlyChanges l s (t.setI w) := by
  intro p hp
  cases p with
  | i => exact absurd hm hp
  | _ => exact h _ hp

theorem OnlyChanges.setV (h : OnlyChanges l s t) (hm : .v ∈ l) (w : Vector Byte 16) :
    OnlyChanges l s (t.setV w) := by
  intro p hp
  cases p with
  | v => exact absurd hm hp
  | _ => exact h _ hp

theorem OnlyChanges.setMem (h : OnlyChanges l s t) (hm : .mem ∈ l) (m : Memory) :
    OnlyChanges l s (t.setMem m) := by
  intro p hp
  cases p with
  | mem => exact absurd hm hp
  | _ => exact h _ hp

end

theorem State.setI_advance_frame (s : State) (w : Word) : OnlyChanges [.i, .pc] s (s.setI w).advance :=
  ((OnlyChanges.refl _ s).setI (by simp) w).setPc (by simp) _

theorem State.memWrite_advance_frame (s : State) (a : Nat) (bs : List Byte) :
    OnlyChanges [.mem, .pc] s (s.memWrite a bs).advance :=
  ((OnlyChanges.refl _ s).setMem (by simp) _).setPc (by simp) _

/-- What an instruction that stores bytes from the address `a` on answers (R153, R155): no two of at most 4096 bytes
fall together mod 4096 (D10), so that each of them stays readable. -/
theorem State.memWrite_advance_spec (s : State) (a : Nat) (bs : List Byte) (hwf : Memory.wf s.mem = true)
    (hlen : bs.length ≤ 4096) :
    (∀ j (hj : j < bs.length), (s.memWrite a bs).advance.memRead (a + j) = bs[j]) ∧
      (∀ k, (∀ j < bs.length, k % 4096 ≠ (a + j) % 4096) → (s.memWrite a bs).advance.memRead k = s.memRead k) ∧
      (s.memWrite a bs).advance.pc = s.pc + 2 ∧ OnlyChanges [.mem, .pc] s (s.memWrite a bs).advance :=
  ⟨fun j hj => Memory.read_writeBytes_inside s.mem a bs hwf hlen j hj,
    fun k hk => Memory.read_writeBytes_outside s.mem a k bs hwf hk, rfl, s.memWrite_advance_frame a bs⟩

theorem State.regsUpTo_length (s : State) (x : Reg) : (s.regsUpTo x).length = x.val + 1 := by
  rw [State.regsUpTo, List.length_take, Vector.length_toList]
  omega

theorem State.regsUpTo_getElem (s : State) (x k : Reg) (hk : k.val < (s.regsUpTo x).length) :
    (s.regsUpTo x)[k.val] = s.reg k := by
  simp [State.regsUpTo, State.reg]

@[simp] theorem bcdDigits_length (b : Byte) : (bcdDigits b).length = 3 := rfl

/-- Each decimal digit of a byte is below 256, so the stored byte is that digit (R153). -/
theorem bcdDigits_toNat (b : Byte) :
    (bcdDigits b)[0].toNat = b.toNat / 100 ∧ (bcdDigits b)[1].toNat = b.toNat / 10 % 10 ∧
      (bcdDigits b)[2].toNat = b.toNat % 10 := by
  have hb := b.isLt
  refine ⟨Nat.mod_eq_of_lt ?_, Nat.mod_eq_of_lt ?_, Nat.mod_eq_of_lt ?_⟩ <;> omega

theorem extAddr_toNat (nnn : Addr) : (extAddr nnn).toNat = nnn.toNat :=
  BitVec.toNat_setWidth_of_le (by decide)

theorem extByte_toNat (b : Byte) : (extByte b).toNat = b.toNat :=
  BitVec.toNat_setWidth_of_le (by decide)

/-- Settles O46: both are one write of I; 16 bits hold a 12-bit address, and a byte times 5. -/
theorem indexLoadsSetI : Obligations.IndexLoadsSetI := by
  intro nnn x s
  have hglyph : (extByte (s.reg x) * 5).toNat = (s.reg x).toNat * 5 := by
    have hlt := (s.reg x).isLt
    rw [BitVec.toNat_mul, extByte_toNat, show (5 : Word).toNat = 5 from rfl]
    omega
  exact ⟨⟨_, rfl, extAddr_toNat nnn, rfl, s.setI_advance_frame _⟩, ⟨_, rfl, hglyph, rfl, s.setI_advance_frame _⟩⟩

/-- Settles O47: one write of I; the word sum is the numbers' sum mod 2^16 (D11). -/
theorem addToIndexWrapsAtSixteenBits : Obligations.AddToIndexWrapsAtSixteenBits := by
  intro x s
  have hsum : (s.i + extByte (s.reg x)).toNat = (s.i.toNat + (s.reg x).toNat) % 65536 := by
    rw [BitVec.toNat_add, extByte_toNat]
  exact ⟨_, rfl, hsum, rfl, s.setI_advance_frame _⟩

/-- Settles O48: the store of three bytes, each of which holds its decimal digit. -/
theorem bcdStoresThreeDigits : Obligations.BcdStoresThreeDigits := by
  rintro x s ⟨hwf, -⟩
  obtain ⟨hin, hout, hpc, hframe⟩ :=
    s.memWrite_advance_spec (s.dataAddr 0) (bcdDigits (s.reg x)) hwf (by simp)
  obtain ⟨hhundreds, htens, hunits⟩ := bcdDigits_toNat (s.reg x)
  exact ⟨_, rfl, (congrArg BitVec.toNat (hin 0 (by simp))).trans hhundreds,
    (congrArg BitVec.toNat (hin 1 (by simp))).trans htens,
    (congrArg BitVec.toNat (hin 2 (by simp))).trans hunits, hout, hpc, hframe⟩

/-- Settles O49: the store of the x + 1 bytes that V0 to V[X] hold. -/
theorem registerDumpStoresRange : Obligations.RegisterDumpStoresRange := by
  rintro x s ⟨hwf, -⟩
  have hlen := s.regsUpTo_length x
  obtain ⟨hin, hout, hpc, hframe⟩ := s.memWrite_advance_spec (s.dataAddr 0) (s.regsUpTo x) hwf (by omega)
  refine ⟨_, rfl, fun k hk => ?_, fun a ha => hout a fun j hj => ?_, hpc, hframe⟩
  · have hk' : k.val < (s.regsUpTo x).length := hlen ▸ Nat.lt_succ_of_le hk
    exact (hin k hk').trans (s.regsUpTo_getElem x k hk')
  · exact ha ⟨j, by omega⟩ (Fin.mk_le_of_le_val (by omega))

/-- Settles O50: register k of the loaded file is the byte at I + k up to X and the old V[k] above. -/
theorem registerLoadReadsRange : Obligations.RegisterLoadReadsRange := by
  intro x s
  have hreg (k : Reg) : (s.setV (s.loadRegs x)).advance.reg k =
      if k ≤ x then s.memRead (s.i.toNat + k) else s.reg k := s.setV_loadRegs_reg x k
  exact ⟨_, rfl, fun k hk => (hreg k).trans (if_pos hk), fun k hk => (hreg k).trans (if_neg (not_le_of_gt hk)), rfl,
    ((OnlyChanges.refl _ s).setV (by simp) _).setPc (by simp) _⟩

end Sys2Proof.Machine

/-! ### Display instructions (43_display.md) -/

namespace Sys2Proof.Machine

theorem OnlyChanges.setDisp {l : List Part} {s t : State} (h : OnlyChanges l s t) (hm : .disp ∈ l) (d : Display) :
    OnlyChanges l s (t.setDisp d) := by
  intro p hp
  cases p with
  | disp => exact absurd hm hp
  | _ => exact h _ hp

/-- `SpriteCovers` with its row and column numbers solved for: the form in which `Plot.sprite_spec` speaks of a cell. -/
theorem spriteCovers_iff (s : State) (x0 y0 n x y : Nat) :
    SpriteCovers s x0 y0 n x y ↔ x0 ≤ x ∧ x < x0 + 8 ∧ y0 ≤ y ∧ y < y0 + n ∧
      (s.memRead (s.i.toNat + (y - y0))).getLsbD (7 - (x - x0)) = true := by
  constructor
  · rintro ⟨r, c, hr, hc, rfl, rfl, hbit⟩
    rw [Nat.add_sub_cancel_left, Nat.add_sub_cancel_left]
    exact ⟨by omega, by omega, by omega, by omega, hbit⟩
  · rintro ⟨hx, hx', hy, hy', hbit⟩
    exact ⟨y - y0, x - x0, by omega, by omega, by omega, by omega, hbit⟩

/-- R171, R173: the sprite engine flips the in-range cells that the sprite covers, and no other. -/
theorem State.drawn_cell (s : State) (x y : Reg) (n : Nat) {px py : Nat} (hx : px < 64) (hy : py < 32) :
    (SpriteCovers s (s.reg x).toNat (s.reg y).toNat n px py →
      Display.cell (s.drawn x y n).1 px py = !Display.cell s.disp px py) ∧
    (¬ SpriteCovers s (s.reg x).toNat (s.reg y).toNat n px py →
      Display.cell (s.drawn x y n).1 px py = Display.cell s.disp px py) := by
  have hcell := (Plot.sprite_spec s.mem (s.dataAddr 0) (s.reg x).toNat (s.reg y).toNat (s.disp, false) n).1 px py
  rw [State.drawn, hcell, spriteCovers_iff]
  constructor
  · intro hcov
    rw [decide_eq_true ⟨hx, hy, hcov⟩, Bool.xor_true]
  · intro hcov
    rw [decide_eq_false fun h => hcov h.2.2, Bool.xor_false]

theorem Display.inRange_of_cell {d : Display} {x y : Nat} (h : Display.cell d x y = true) : x < 64 ∧ y < 32 := by
  by_contra hout
  rw [Display.cell_outside d x y hout] at h
  cases h

/-- `State.drawn_hit_iff` with the cell's range said: a lit cell is in range. -/
theorem State.drawn_hit_iff_inRange (s : State) (x y : Reg) (n : Nat) :
    (s.drawn x y n).2 = true ↔
      ∃ px py, px < 64 ∧ py < 32 ∧ SpriteCovers s (s.reg x).toNat (s.reg y).toNat n px py ∧
        Display.cell s.disp px py = true := by
  rw [State.drawn_hit_iff]
  refine exists₂_congr fun px py => ⟨fun ⟨hcov, hlit⟩ => ?_, fun ⟨_, _, h⟩ => h⟩
  obtain ⟨hx, hy⟩ := Display.inRange_of_cell hlit
  exact ⟨hx, hy, hcov, hlit⟩

/-- Settles O51: one write of the blank display. -/
theorem clearZeroesEveryCell : Obligations.ClearZeroesEveryCell := fun s =>
  ⟨_, rfl, fun px py _ _ => Display.cell_blank px py, rfl,
    ((OnlyChanges.refl _ s).setDisp (by simp) _).setPc (by simp) _⟩

/-- Settles O52: the display and the flag are those of the sprite engine, for the coordinates of the state before VF is
written (D8). -/
theorem drawXorsSpriteAndReportsCollision : Obligations.DrawXorsSpriteAndReportsCollision := by
  intro x y n s
  have hhit := s.drawn_hit_iff_inRange x y n
  have hexec : exec (.drw x y n) s =
      .next ((s.setDisp (s.drawn x y n).1).setReg vf (collisionFlag (s.drawn x y n).2)).advance := rfl
  have hvf := exec_drw_vf hexec
  refine ⟨_, hexec, fun px py hx hy => s.drawn_cell x y n hx hy, fun h => hvf.trans (if_pos (hhit.2 h)),
    fun h => hvf.trans (if_neg (mt hhit.1 h)), rfl, State.setReg_regsKept _ vf _, ?_⟩
  exact (((OnlyChanges.refl _ s).setDisp (by simp) _).setReg (by simp) vf _).setPc (by simp) _

end Sys2Proof.Machine

/-! ### Key and timer instructions (44_timers_keys.md) -/

namespace Sys2Proof.Machine

section

variable {l : List Part} {s t : State}

theorem OnlyChanges.setDt (h : OnlyChanges l s t) (hm : .dt ∈ l) (b : Byte) : OnlyChanges l s (t.setDt b) := by
  intro p hp
  cases p with
  | dt => exact absurd hm hp
  | _ => exact h _ hp

theorem OnlyChanges.setSt (h : OnlyChanges l s t) (hm : .st ∈ l) (b : Byte) : OnlyChanges l s (t.setSt b) := by
  intro p hp
  cases p with
  | st => exact absurd hm hp
  | _ => exact h _ hp

end

/-- SKP: skip when the key is pressed. -/
theorem State.skipIf_bool_spec (s : State) (c : Bool) :
    (c = true → (s.skipIf c).pc = s.pc + 4) ∧ (c = false → (s.skipIf c).pc = s.pc + 2) ∧
      OnlyChanges [.pc] s (s.skipIf c) := by
  simpa only [Bool.not_eq_true] using s.skipIf_spec (p := c = true) Iff.rfl

/-- SKNP: skip when the key is released. -/
theorem State.skipIf_not_spec (s : State) (c : Bool) :
    (c = false → (s.skipIf !c).pc = s.pc + 4) ∧ (c = true → (s.skipIf !c).pc = s.pc + 2) ∧
      OnlyChanges [.pc] s (s.skipIf !c) := by
  simpa only [Bool.not_eq_true', Bool.not_eq_false'] using s.skipIf_bool_spec !c

/-- Settles O54: both skips test the latch entry that the low four bits of V[X] name (D13). -/
theorem keySkipsFollowLatch : Obligations.KeySkipsFollowLatch := fun x s =>
  ⟨⟨_, rfl, s.skipIf_bool_spec (s.keyDown (keyIndex (s.reg x)))⟩,
    ⟨_, rfl, s.skipIf_not_spec (s.keyDown (keyIndex (s.reg x)))⟩⟩

theorem State.getD_keys (s : State) (k : Fin 16) : s.keys.getD k false = s.keyDown k := by
  simp [Vector.getD, State.keyDown]

theorem State.lowestKey_eq_some_iff (s : State) (k : Fin 16) :
    s.lowestKey = some k.val ↔ s.keyDown k = true ∧ ∀ j < k, s.keyDown j = false := by
  rw [State.lowestKey, List.find?_range_eq_some, State.getD_keys]
  refine and_congr_right fun _ => ⟨fun ⟨_, hlow⟩ j hj => ?_, fun hlow => ⟨List.mem_range.2 k.isLt, fun j hj => ?_⟩⟩
  · simpa only [State.getD_keys, Bool.not_eq_true'] using hlow j hj
  · have hget := s.getD_keys ⟨j, hj.trans k.isLt⟩
    rw [hget, hlow _ hj, Bool.not_false]

theorem exec_ldVxK_wait {x : Reg} {s : State} (h : s.lowestKey = none) : exec (.ldVxK x) s = .next s := by
  simp only [exec, execLdVxK, h]

theorem exec_ldVxK_take {x : Reg} {s : State} {k : Nat} (h : s.lowestKey = some k) :
    exec (.ldVxK x) s = .next (s.setReg x (BitVec.ofNat 8 k)).advance := by
  simp only [exec, execLdVxK, h]

/-- Settles O55: with a key pressed, one register write of the lowest one's number, which a byte holds. -/
theorem keyWaitTakesLowestKey : Obligations.KeyWaitTakesLowestKey := by
  intro x s
  refine ⟨fun k hdown hlow => ?_, fun hnone => exec_ldVxK_wait (s.lowestKey_eq_none_iff.2 hnone)⟩
  obtain ⟨hx, hrest⟩ := s.setReg_advance_spec x (BitVec.ofNat 8 k)
  have hk : (BitVec.ofNat 8 k.val).toNat = k.val := Nat.mod_eq_of_lt (by omega)
  exact ⟨_, exec_ldVxK_take ((s.lowestKey_eq_some_iff k).2 ⟨hdown, hlow⟩), hx.symm ▸ hk, hrest⟩

/-- R210: a step that reports no error leaves DT one less, or 0. -/
theorem State.endStep_dt_toNat {s : State} (h : s.reply = .ok) : s.endStep.dt.toNat = s.dt.toNat - 1 := by
  rw [State.endStep_dt, if_pos h, decTimer_toNat]

/-- R210: a step that reports no error leaves ST one less, or 0. -/
theorem State.endStep_st_toNat {s : State} (h : s.reply = .ok) : s.endStep.st.toNat = s.st.toNat - 1 := by
  rw [State.endStep_st, if_pos h, decTimer_toNat]

/-- Settles O56: each is one write; none touches the reply, so the tick follows on the values that it leaves. -/
theorem timerMovesCopyBytes : Obligations.TimerMovesCopyBytes := by
  intro x s
  refine ⟨?_, ?_, ?_⟩
  · obtain ⟨hx, hpc, hregs, hframe⟩ := s.setReg_advance_spec x s.dt
    exact ⟨_, rfl, hx, hpc, hregs, hframe, fun hok => ⟨(State.endStep_reg _ x).trans hx, State.endStep_dt_toNat hok⟩⟩
  · exact ⟨_, rfl, rfl, rfl, ((OnlyChanges.refl _ s).setDt (by simp) _).setPc (by simp) _,
      fun hok => State.endStep_dt_toNat hok⟩
  · exact ⟨_, rfl, rfl, rfl, ((OnlyChanges.refl _ s).setSt (by simp) _).setPc (by simp) _,
      fun hok => State.endStep_st_toNat hok⟩

end Sys2Proof.Machine

/-! ### The key latch port (60_exceptions.md) -/

namespace Sys2Proof.Machine

theorem OnlyChanges.setKeys {l : List Part} {s t : State} (h : OnlyChanges l s t) (hm : .keys ∈ l)
    (k : Vector Bool 16) : OnlyChanges l s (t.setKeys k) := by
  intro p hp
  cases p with
  | keys => exact absurd hm hp
  | _ => exact h _ hp

theorem State.setKey_of_lt (s : State) {index : Nat} (pressed : Bool) (h : index < 16) :
    s.setKey index pressed = (s.setKeys (s.keys.set index pressed h)).setReply .ok := dif_pos h

theorem State.setKey_of_le (s : State) {index : Nat} (pressed : Bool) (h : 16 ≤ index) :
    s.setKey index pressed = s.setReply .invalidKeyIndex := dif_neg (Nat.not_lt.2 h)

theorem State.setKeys_set_keyDown_same (s : State) {index : Nat} (pressed : Bool) (h : index < 16) :
    (s.setKeys (s.keys.set index pressed h)).keyDown ⟨index, h⟩ = pressed :=
  Vector.getElem_set_self h

theorem State.setKeys_set_keyDown_ne (s : State) {index : Nat} (pressed : Bool) (h : index < 16) {k : Fin 16}
    (hk : k.val ≠ index) : (s.setKeys (s.keys.set index pressed h)).keyDown k = s.keyDown k :=
  Vector.getElem_set_ne h k.isLt hk.symm

/-- Settles O6: an index below 16 is one write of the latch and the reply OK; any other writes the reply only. -/
theorem setKeyWritesOneLatchEntry : Obligations.SetKeyWritesOneLatchEntry := by
  intro s index pressed
  refine ⟨fun h => ?_, fun h => ?_⟩
  · rw [s.setKey_of_lt pressed h]
    exact ⟨rfl, s.setKeys_set_keyDown_same pressed h, fun k hk => s.setKeys_set_keyDown_ne pressed h hk,
      ((OnlyChanges.refl _ s).setKeys (by simp) _).setReply (by simp) _⟩
  · rw [s.setKey_of_le pressed h]
    exact ⟨rfl, s.raise_frame .invalidKeyIndex⟩

end Sys2Proof.Machine

/-! ### What an instruction and a step may change (R9, R80) -/

namespace Sys2Proof

/-- The pieces of state that an instruction writes: those its rule names, and the reply where it can report an error. -/
@[simp] def Instr.mayChange : Instr → List Machine.Part
  | .jp _ | .jpV0 _ | .seByte _ _ | .sneByte _ _ | .seReg _ _ | .sneReg _ _ | .skp _ | .sknp _ => [.pc]
  | .ret => [.sp, .pc, .reply]
  | .call _ => [.stack, .sp, .pc, .reply]
  | .ldI _ | .addI _ | .ldF _ => [.i, .pc]
  | .ldB _ | .ldMemVx _ => [.mem, .pc]
  | .cls => [.disp, .pc]
  | .drw _ _ _ => [.disp, .v, .pc]
  | .rnd _ _ => [.v, .pc, .draws]
  | .ldDtVx _ => [.dt, .pc]
  | .ldStVx _ => [.st, .pc]
  | .ldByte _ _ | .addByte _ _ | .ldReg _ _ | .orReg _ _ | .andReg _ _ | .xorReg _ _ | .addReg _ _ => [.v, .pc]
  | .sub _ _ | .shr _ _ | .subn _ _ | .shl _ _ | .ldVxDt _ | .ldVxK _ | .ldVxMem _ => [.v, .pc]

end Sys2Proof

namespace Sys2Proof.Machine

theorem exec_ldVxMem_eq {x : Reg} {s u : State} (h : exec (.ldVxMem x) s = .next u) :
    u = (s.setV (s.loadRegs x)).advance :=
  (Host.Outcome.next.inj h).symm

theorem exec_frame {i : Instr} {s u : State} (h : exec i s = .next u) : OnlyChanges i.mayChange s u := by
  cases i with
  | ret =>
    obtain ⟨-, rfl⟩ | ⟨-, rfl⟩ := exec_ret_cases h
    · exact (OnlyChanges.refl _ s).setReply (by simp) _
    · exact ((OnlyChanges.refl _ s).setSp (by simp) _).setPc (by simp) _
  | call nnn =>
    obtain ⟨-, rfl⟩ | ⟨-, rfl⟩ := exec_call_cases h
    · exact (OnlyChanges.refl _ s).setReply (by simp) _
    · exact (((OnlyChanges.refl _ s).setStack (by simp) _ _).setSp
        (by simp) _).setPc (by simp) _
  | ldVxK x =>
    obtain ⟨-, rfl⟩ | ⟨k, -, rfl⟩ := exec_ldVxK_cases h
    · exact OnlyChanges.refl _ _
    · exact s.setReg_advance_frame x _
  | jp | jpV0 | seByte | sneByte | seReg | sneReg | skp | sknp => cases h; exact State.setPc_frame _ _
  | ldI | addI | ldF => cases h; exact State.setI_advance_frame _ _
  | ldB | ldMemVx => cases h; exact State.memWrite_advance_frame _ _ _
  | addReg | sub | shr | subn | shl => cases h; exact State.setFlagThenReg_advance_frame _ _ _ _
  | ldByte | addByte | ldReg | orReg | andReg | xorReg | ldVxDt => cases h; exact State.setReg_advance_frame _ _ _
  | ldVxMem x =>
    rw [exec_ldVxMem_eq h]
    exact ((OnlyChanges.refl _ s).setV (by simp) _).setPc (by simp) _
  | rnd x nn =>
    cases h
    exact (((OnlyChanges.refl _ s).setReg (by simp) x _).setPc (by simp) _).setDraws (by simp) _
  | cls => cases h; exact ((OnlyChanges.refl _ s).setDisp (by simp) _).setPc (by simp) _
  | drw x y n =>
    cases h
    exact (((OnlyChanges.refl _ s).setDisp (by simp) _).setReg (by simp) vf _).setPc (by simp) _
  | ldDtVx x => cases h; exact ((OnlyChanges.refl _ s).setDt (by simp) _).setPc (by simp) _
  | ldStVx x => cases h; exact ((OnlyChanges.refl _ s).setSt (by simp) _).setPc (by simp) _

theorem exec_ir {i : Instr} {s u : State} (h : exec i s = .next u) : u.ir = s.ir :=
  exec_frame h .ir (by cases i <;> simp)

theorem exec_cfg {i : Instr} {s u : State} (h : exec i s = .next u) : u.cfg = s.cfg :=
  exec_frame h .cfg (by cases i <;> simp)

@[simp] theorem State.unmatched_ir (s : State) : s.unmatched.ir = s.ir := by
  rw [s.unmatched_frame, State.setReply_ir]
@[simp] theorem State.unmatched_sp (s : State) : s.unmatched.sp = s.sp := by
  rw [s.unmatched_frame, State.setReply_sp]
@[simp] theorem State.unmatched_stack (s : State) : s.unmatched.stack = s.stack := by
  rw [s.unmatched_frame, State.setReply_stack]
@[simp] theorem State.unmatched_dt (s : State) : s.unmatched.dt = s.dt := by
  rw [s.unmatched_frame, State.setReply_dt]
@[simp] theorem State.unmatched_st (s : State) : s.unmatched.st = s.st := by
  rw [s.unmatched_frame, State.setReply_st]
@[simp] theorem State.unmatched_disp (s : State) : s.unmatched.disp = s.disp := by
  rw [s.unmatched_frame, State.setReply_disp]
@[simp] theorem State.unmatched_mem (s : State) : s.unmatched.mem = s.mem := by
  rw [s.unmatched_frame, State.setReply_mem]
@[simp] theorem State.unmatched_cfg (s : State) : s.unmatched.cfg = s.cfg := by
  rw [s.unmatched_frame, State.setReply_cfg]

@[simp] theorem State.endStep_memRead (s : State) (a : Nat) : s.endStep.memRead a = s.memRead a := by
  rw [State.memRead, State.endStep_mem, ← State.memRead]

/-- R35: IR holds the fetched word after a step. -/
theorem step_ir {s t : State} (h : step s = .next t) : t.ir = s.fetchWord := by
  obtain ⟨-, rfl⟩ | ⟨i, u, -, hu, rfl⟩ := step_cases_nextInstr h
  · simp
  · rw [State.endStep_ir, exec_ir hu, State.latch_eq, State.setReply_ir, State.setIr_ir]

/-- R6: the parameters are those of the state before. -/
theorem step_cfg {s t : State} (h : step s = .next t) : t.cfg = s.cfg := by
  obtain ⟨-, rfl⟩ | ⟨i, u, -, hu, rfl⟩ := step_cases_nextInstr h
  · simp
  · rw [State.endStep_cfg, exec_cfg hu, State.latch_eq, State.setReply_cfg, State.setIr_cfg]

theorem joinBytes_toNat (hi lo : Byte) : (joinBytes hi lo).toNat = 256 * hi.toNat + lo.toNat := by
  have hlo := lo.isLt
  rw [joinBytes, BitVec.toNat_append, ← Nat.shiftLeft_add_eq_or_of_lt hlo, Nat.shiftLeft_eq, Nat.mul_comm]

/-- Settles O19: the latch keeps the fetched word through the step, and its value is that of its two bytes. -/
theorem stepLatchesBigEndianWord : Obligations.StepLatchesBigEndianWord := by
  intro s t h
  rw [step_ir h]
  exact joinBytes_toNat _ _

/-! ### Every operation answers a next state (R66, R200) -/

theorem exec_total (i : Instr) (s : State) : ∃ u, exec i s = .next u := by
  cases i with
  | ret =>
    by_cases hc : s.cfg.strict = true ∧ s.sp = 0
    · exact ⟨_, exec_ret_underflow hc⟩
    · exact ⟨_, exec_ret_pop hc⟩
  | call nnn =>
    by_cases hc : s.cfg.strict = true ∧ 16 ≤ s.sp.toNat
    · exact ⟨_, exec_call_overflow hc⟩
    · exact ⟨_, exec_call_push hc⟩
  | ldVxK x =>
    cases hk : s.lowestKey with
    | none => exact ⟨_, exec_ldVxK_wait hk⟩
    | some k => exact ⟨_, exec_ldVxK_take hk⟩
  | _ => exact ⟨_, rfl⟩

theorem step_total (s : State) : ∃ t, step s = .next t := by
  cases hn : s.nextInstr with
  | none => exact ⟨_, step_of_nextInstr_none hn⟩
  | some i =>
    obtain ⟨u, hu⟩ := exec_total i (s.latch s.fetchWord)
    exact ⟨_, step_of_nextInstr_some hn hu⟩

/-- Settles O11: every operation but the step is a function on states, and every instruction answers a next state. -/
theorem everyOperationAnswersNextState : Obligations.EveryOperationAnswersNextState := by
  intro op s
  cases op with
  | step => exact step_total s
  | _ => exact ⟨_, rfl⟩

/-! ### The invariant, and what holds along every sequence of host operations -/

theorem exec_mem_wf {i : Instr} {s u : State} (h : exec i s = .next u) (hwf : Memory.wf s.mem = true) :
    Memory.wf u.mem = true := by
  cases i with
  | ldB x | ldMemVx x => cases h; exact Memory.writeBytes_wf _ _ _ hwf
  | ret => obtain ⟨-, rfl⟩ | ⟨-, rfl⟩ := exec_ret_cases h <;> exact hwf
  | call nnn => obtain ⟨-, rfl⟩ | ⟨-, rfl⟩ := exec_call_cases h <;> exact hwf
  | ldVxK x => obtain ⟨-, rfl⟩ | ⟨k, -, rfl⟩ := exec_ldVxK_cases h <;> exact hwf
  | ldVxMem x => rw [exec_ldVxMem_eq h]; simpa using hwf
  | _ => cases h; exact hwf

/-- R203: in strict mode a call that is no error starts with SP at most 15, and a return always leaves a slot number. -/
theorem exec_sp_le {i : Instr} {s u : State} (h : exec i s = .next u) (hstrict : s.cfg.strict = true)
    (hsp : s.sp.toNat ≤ 16) : u.sp.toNat ≤ 16 := by
  cases i with
  | ret =>
    obtain ⟨-, rfl⟩ | ⟨-, rfl⟩ := exec_ret_cases h
    · exact hsp
    · have hpop : _ = (s.sp.toNat + 15) % 16 := toNat_ofNat_popSlot s.sp
      exact hpop.trans_le (by omega)
  | call nnn =>
    obtain ⟨-, rfl⟩ | ⟨hroom, rfl⟩ := exec_call_cases h
    · exact hsp
    · have hlt : s.sp.toNat < 16 := Nat.not_le.1 fun hfull => hroom ⟨hstrict, hfull⟩
      have hpush : (s.sp + 1).toNat = s.sp.toNat + 1 := by bv_omega
      exact hpush.trans_le hlt
  | _ => rwa [(exec_frame h .sp (by simp) : u.sp = s.sp)]

theorem exec_keeps_inv {i : Instr} {s u : State} (h : exec i s = .next u) : s.Inv → u.Inv := by
  rintro ⟨hwf, hsp⟩
  refine ⟨exec_mem_wf h hwf, fun hstrict => ?_⟩
  rw [exec_cfg h] at hstrict
  exact exec_sp_le h hstrict (hsp hstrict)

theorem State.inv_congr {s t : State} (hmem : t.mem = s.mem) (hcfg : t.cfg = s.cfg) (hsp : t.sp = s.sp) :
    t.Inv ↔ s.Inv := by
  rw [State.Inv, State.Inv, hmem, hcfg, hsp]

/-- Settles O9: the fetch, the unmatched word and the tick touch nothing the invariant speaks of, and every instruction
keeps it. -/
theorem everyStepKeepsInvariant : Obligations.EveryStepKeepsInvariant := by
  intro s t hs h
  obtain ⟨-, rfl⟩ | ⟨i, u, -, hu, rfl⟩ := step_cases_nextInstr h
  · exact (State.inv_congr (by simp) (by simp) (by simp)).2 hs
  · exact (State.inv_congr u.endStep_mem u.endStep_cfg u.endStep_sp).2 (exec_keeps_inv hu hs)

theorem HostOp.applyAll_cons_iff {op : HostOp} {ops : List HostOp} {s t : State} :
    HostOp.applyAll (op :: ops) s = .next t ↔ ∃ u, op.apply s = .next u ∧ HostOp.applyAll ops u = .next t := by
  rw [HostOp.applyAll]
  cases op.apply s <;> simp

/-- What holds at the start and is kept by every operation holds after every sequence of them. -/
theorem HostOp.applyAll_induction {P : State → Prop}
    (hop : ∀ (op : HostOp) (s t : State), op.apply s = .next t → P s → P t) {ops : List HostOp} {s t : State}
    (h : HostOp.applyAll ops s = .next t) (hs : P s) : P t := by
  induction ops generalizing s with
  | nil => cases h; exact hs
  | cons op ops ih =>
    obtain ⟨u, hu, hrest⟩ := HostOp.applyAll_cons_iff.1 h
    exact ih hrest (hop op s u hu hs)

theorem State.load_of_lt (s : State) {image : List Byte} (h : maxImage < image.length) :
    s.load image = s.setReply .imageTooLarge := if_pos h

theorem State.load_of_le (s : State) {image : List Byte} (h : image.length ≤ maxImage) :
    s.load image = s.hostReset.memWrite progOrigin image := if_neg (Nat.not_lt.2 h)

theorem State.load_cfg (s : State) (image : List Byte) : (s.load image).cfg = s.cfg := by
  rcases Nat.lt_or_ge maxImage image.length with h | h
  · rw [s.load_of_lt h, State.setReply_cfg]
  · rw [s.load_of_le h, State.memWrite_eq, State.setMem_cfg, State.hostReset_cfg]

theorem State.setKey_cfg (s : State) (index : Nat) (pressed : Bool) : (s.setKey index pressed).cfg = s.cfg := by
  rcases Nat.lt_or_ge index 16 with h | h
  · rw [s.setKey_of_lt pressed h, State.setReply_cfg, State.setKeys_cfg]
  · rw [s.setKey_of_le pressed h, State.setReply_cfg]

theorem State.hostReset_inv {s : State} : s.Inv → s.hostReset.Inv := by
  rintro ⟨hwf, -⟩
  exact ⟨s.hostReset_wf hwf, fun _ => Nat.zero_le 16⟩

theorem State.load_inv {s : State} (image : List Byte) (hs : s.Inv) : (s.load image).Inv := by
  rcases Nat.lt_or_ge maxImage image.length with h | h
  · rw [s.load_of_lt h]
    exact hs
  · rw [s.load_of_le h]
    obtain ⟨hwf, hsp⟩ := State.hostReset_inv hs
    exact ⟨Memory.writeBytes_wf _ _ _ hwf, hsp⟩

theorem State.setKey_inv {s : State} (index : Nat) (pressed : Bool) (hs : s.Inv) : (s.setKey index pressed).Inv := by
  rcases Nat.lt_or_ge index 16 with h | h
  · rw [s.setKey_of_lt pressed h]
    exact hs
  · rw [s.setKey_of_le pressed h]
    exact hs

theorem HostOp.apply_keeps_inv (op : HostOp) (s t : State) (h : op.apply s = .next t) (hs : s.Inv) : t.Inv := by
  cases op with
  | step => exact everyStepKeepsInvariant s t hs h
  | reset => cases h; exact State.hostReset_inv hs
  | load image => cases h; exact State.load_inv image hs
  | setKey index pressed => cases h; exact State.setKey_inv index pressed hs
  | readDisplay | readSnapshot => cases h; exact hs

/-- Settles O10, by induction on the operations: each of them keeps the invariant. -/
theorem hostOperationsKeepInvariant : Obligations.HostOperationsKeepInvariant :=
  fun _ _ _ hs h => HostOp.applyAll_induction HostOp.apply_keeps_inv h hs

theorem HostOp.apply_cfg {op : HostOp} {s t : State} (h : op.apply s = .next t) : t.cfg = s.cfg := by
  cases op with
  | step => exact step_cfg h
  | reset => cases h; exact s.hostReset_cfg
  | load image => cases h; exact s.load_cfg image
  | setKey index pressed => cases h; exact s.setKey_cfg index pressed
  | readDisplay | readSnapshot => cases h; rfl

/-- Settles O12, by induction on the operations: none of them writes the parameters. -/
theorem parametersNeverChange : Obligations.ParametersNeverChange := fun _ s _ h =>
  HostOp.applyAll_induction (P := fun t => t.cfg = s.cfg) (fun _ _ _ hop hs => (HostOp.apply_cfg hop).trans hs) h rfl

/-! ### Errors of a step (60_exceptions.md R201 to R206) -/

/-- The two errors that an instruction reports, both in strict mode only (R203, R204). -/
theorem exec_error_cases {i : Instr} {s u : State} (h : exec i s = .next u) (hs : s.reply = .ok)
    (hu : u.reply ≠ .ok) :
    s.cfg.strict = true ∧
      ((∃ nnn, i = .call nnn ∧ 16 ≤ s.sp.toNat ∧ u = s.raise .stackOverflow) ∨
       (i = .ret ∧ s.sp = 0 ∧ u = s.raise .stackUnderflow)) := by
  cases i with
  | ret =>
    obtain ⟨⟨hstrict, hsp⟩, rfl⟩ | ⟨-, rfl⟩ := exec_ret_cases h
    · exact ⟨hstrict, .inr ⟨rfl, hsp, rfl⟩⟩
    · exact absurd hs hu
  | call nnn =>
    obtain ⟨⟨hstrict, hsp⟩, rfl⟩ | ⟨-, rfl⟩ := exec_call_cases h
    · exact ⟨hstrict, .inl ⟨nnn, rfl, hsp, rfl⟩⟩
    · exact absurd hs hu
  | _ => exact absurd ((exec_frame h .reply (by simp)).trans hs) hu

theorem State.unmatched_strict {s : State} (h : s.cfg.strict = true) : s.unmatched = s.raise .unknownInstruction :=
  if_pos h

theorem State.unmatched_lenient {s : State} (h : s.cfg.strict = false) : s.unmatched = s :=
  if_neg (by simp [h])

theorem OnlyChanges.setIr {l : List Part} {s t : State} (h : OnlyChanges l s t) (hm : .ir ∈ l) (w : Word) :
    OnlyChanges l s (t.setIr w) := by
  intro p hp
  cases p with
  | ir => exact absurd hm hp
  | _ => exact h _ hp

/-- The fetch writes IR and the reply. -/
theorem OnlyChanges.latch {l : List Part} {s t : State} (h : OnlyChanges l s t) (hir : .ir ∈ l) (hreply : .reply ∈ l)
    (w : Word) : OnlyChanges l s (t.latch w) :=
  (h.setIr hir w).setReply hreply .ok

/-- R205: what a step that reports the error `e` leaves. -/
theorem State.latch_raise_frame (s : State) (w : Word) (e : Reply) :
    OnlyChanges [.ir, .reply] s ((s.latch w).raise e) :=
  ((OnlyChanges.refl _ s).latch (by simp) (by simp) w).setReply (by simp) e

/-- Everything a step that reports an error did (D20). -/
theorem step_error_cases {s t : State} (h : step s = .next t) (ht : t.reply ≠ .ok) :
    s.cfg.strict = true ∧
      ((s.nextInstr = none ∧ t = (s.latch s.fetchWord).raise .unknownInstruction) ∨
       (∃ nnn, s.nextInstr = some (.call nnn) ∧ 16 ≤ s.sp.toNat ∧ t = (s.latch s.fetchWord).raise .stackOverflow) ∨
       (s.nextInstr = some .ret ∧ s.sp = 0 ∧ t = (s.latch s.fetchWord).raise .stackUnderflow)) := by
  obtain ⟨hn, rfl⟩ | ⟨i, u, hn, hu, rfl⟩ := step_cases_nextInstr h
  · rw [State.endStep_reply] at ht
    rw [State.endStep_error _ ht]
    cases hstrict : s.cfg.strict with
    | true => exact ⟨rfl, .inl ⟨hn, State.unmatched_strict hstrict⟩⟩
    | false =>
      have hlenient : _ = s.latch s.fetchWord := State.unmatched_lenient hstrict
      exact absurd (congrArg State.reply hlenient) ht
  · rw [State.endStep_reply] at ht
    rw [State.endStep_error _ ht]
    obtain ⟨hstrict, ⟨nnn, rfl, hsp, rfl⟩ | ⟨rfl, hsp, rfl⟩⟩ := exec_error_cases hu rfl ht
    · exact ⟨hstrict, .inr (.inl ⟨nnn, hn, hsp, rfl⟩)⟩
    · exact ⟨hstrict, .inr (.inr ⟨hn, hsp, rfl⟩)⟩

/-- Settles O23: each of the three errors is raised on the latched state, and ends the step there. -/
theorem everyStepErrorIsPrecise : Obligations.EveryStepErrorIsPrecise := by
  intro s t h ht
  obtain ⟨hstrict, ⟨hn, rfl⟩ | ⟨nnn, hn, hsp, rfl⟩ | ⟨hn, hsp, rfl⟩⟩ := step_error_cases h ht
  · exact ⟨hstrict, rfl, s.latch_raise_frame _ _, .inl ⟨rfl, hn⟩⟩
  · exact ⟨hstrict, rfl, s.latch_raise_frame _ _, .inr (.inl ⟨rfl, ⟨nnn, hn⟩, hsp⟩)⟩
  · exact ⟨hstrict, rfl, s.latch_raise_frame _ _, .inr (.inr ⟨rfl, hn, hsp⟩)⟩

/-- Settles O22: the strict unmatched word raises its error on the latched state, with no tick. -/
theorem strictUnmatchedWordIsReported : Obligations.StrictUnmatchedWordIsReported := by
  intro s e he hstrict
  have hstep := step_of_nextInstr_none (s.nextInstr_eq_none_iff.2 ⟨e, he⟩)
  rw [State.unmatched_strict (s := s.latch s.fetchWord) hstrict, State.endStep_error _ (by simp)] at hstep
  exact ⟨_, hstep, rfl, rfl, s.latch_raise_frame _ _⟩

/-- Settles O21: the lenient unmatched word is the latch and the tick. -/
theorem lenientUnmatchedWordFreezesPc : Obligations.LenientUnmatchedWordFreezesPc := by
  intro s e he hlenient
  have hstep := step_of_nextInstr_none (s.nextInstr_eq_none_iff.2 ⟨e, he⟩)
  rw [State.unmatched_lenient (s := s.latch s.fetchWord) hlenient] at hstep
  refine ⟨_, hstep, by simp, by simp, State.endStep_dt_toNat rfl, State.endStep_st_toNat rfl, ?_⟩
  rw [State.endStep_ok _ rfl]
  exact (((OnlyChanges.refl _ s).latch (by simp) (by simp) s.fetchWord).setDt (by simp) _).setSt (by simp) _

end Sys2Proof.Machine

/-! ### The decoder, by family (30_encoding.md R83) -/

namespace Sys2Proof

theorem nibble_cases (f : Nibble) :
    f = 0x0#4 ∨ f = 0x1#4 ∨ f = 0x2#4 ∨ f = 0x3#4 ∨ f = 0x4#4 ∨ f = 0x5#4 ∨ f = 0x6#4 ∨ f = 0x7#4 ∨
    f = 0x8#4 ∨ f = 0x9#4 ∨ f = 0xA#4 ∨ f = 0xB#4 ∨ f = 0xC#4 ∨ f = 0xD#4 ∨ f = 0xE#4 ∨ f = 0xF#4 := by
  revert f
  decide

section

variable {w : Word}

theorem decodeWord_family0 (h : family w = 0x0#4) : decodeWord w = decodeFamily0 w := by
  simp only [decodeWord, h]
theorem decodeWord_family1 (h : family w = 0x1#4) : decodeWord w = .ok (.jp (fieldNNN w)) := by
  simp only [decodeWord, h]
theorem decodeWord_family2 (h : family w = 0x2#4) : decodeWord w = .ok (.call (fieldNNN w)) := by
  simp only [decodeWord, h]
theorem decodeWord_family3 (h : family w = 0x3#4) : decodeWord w = .ok (.seByte (fieldX w) (fieldNN w)) := by
  simp only [decodeWord, h]
theorem decodeWord_family4 (h : family w = 0x4#4) : decodeWord w = .ok (.sneByte (fieldX w) (fieldNN w)) := by
  simp only [decodeWord, h]
theorem decodeWord_family5 (h : family w = 0x5#4) : decodeWord w = .ok (.seReg (fieldX w) (fieldY w)) := by
  simp only [decodeWord, h]
theorem decodeWord_family6 (h : family w = 0x6#4) : decodeWord w = .ok (.ldByte (fieldX w) (fieldNN w)) := by
  simp only [decodeWord, h]
theorem decodeWord_family7 (h : family w = 0x7#4) : decodeWord w = .ok (.addByte (fieldX w) (fieldNN w)) := by
  simp only [decodeWord, h]
theorem decodeWord_family8 (h : family w = 0x8#4) : decodeWord w = decodeFamily8 w := by
  simp only [decodeWord, h]
theorem decodeWord_family9 (h : family w = 0x9#4) : decodeWord w = .ok (.sneReg (fieldX w) (fieldY w)) := by
  simp only [decodeWord, h]
theorem decodeWord_familyA (h : family w = 0xA#4) : decodeWord w = .ok (.ldI (fieldNNN w)) := by
  simp only [decodeWord, h]
theorem decodeWord_familyB (h : family w = 0xB#4) : decodeWord w = .ok (.jpV0 (fieldNNN w)) := by
  simp only [decodeWord, h]
theorem decodeWord_familyC (h : family w = 0xC#4) : decodeWord w = .ok (.rnd (fieldX w) (fieldNN w)) := by
  simp only [decodeWord, h]
theorem decodeWord_familyD (h : family w = 0xD#4) :
    decodeWord w = .ok (.drw (fieldX w) (fieldY w) (fieldN w).toNat) := by
  simp only [decodeWord, h]
theorem decodeWord_familyE (h : family w = 0xE#4) : decodeWord w = decodeFamilyE w := by
  simp only [decodeWord, h]
theorem decodeWord_familyF (h : family w = 0xF#4) : decodeWord w = decodeFamilyF w := by
  simp only [decodeWord, h]
  rfl

end

/-- Settles O13: the family of the encoded word selects its row of R83, and the fields of the word are the operands. -/
theorem decodeOfEncodeIsIdentity : Obligations.DecodeOfEncodeIsIdentity := by
  intro i hwf
  cases i with
  | cls | ret => decide
  | jp nnn => simp [encode, decodeWord_family1]
  | call nnn => simp [encode, decodeWord_family2]
  | seByte x nn => simp [encode, decodeWord_family3]
  | sneByte x nn => simp [encode, decodeWord_family4]
  | seReg x y => simp [encode, decodeWord_family5]
  | ldByte x nn => simp [encode, decodeWord_family6]
  | addByte x nn => simp [encode, decodeWord_family7]
  | ldReg | orReg | andReg | xorReg | addReg | sub | shr | subn | shl =>
    simp [encode, decodeWord_family8, decodeFamily8]
  | sneReg x y => simp [encode, decodeWord_family9]
  | ldI nnn => simp [encode, decodeWord_familyA]
  | jpV0 nnn => simp [encode, decodeWord_familyB]
  | rnd x nn => simp [encode, decodeWord_familyC]
  | drw x y n =>
    have hrows : n < 16 := of_decide_eq_true hwf
    simp [encode, decodeWord_familyD, Nat.mod_eq_of_lt hrows]
  | skp | sknp => simp [encode, decodeWord_familyE, decodeFamilyE]
  | ldVxDt | ldVxK | ldDtVx | ldStVx | addI | ldF | ldB | ldMemVx | ldVxMem =>
    simp [encode, decodeWord_familyF, decodeFamilyF]

/-! ### A word is its fields -/

theorem wordNNN_fields (w : Word) : wordNNN (family w) (fieldNNN w) = w :=
  (BitVec.extractLsb'_append_extractLsb'_eq_extractLsb' rfl).trans BitVec.extractLsb'_eq_self

theorem wordXNN_fields (w : Word) : wordXNN (family w) (fieldX w) (fieldNN w) = w := by
  have hfx : family w ++ nibbleOf (fieldX w) = w.extractLsb' 8 8 :=
    BitVec.extractLsb'_append_extractLsb'_eq_extractLsb' rfl
  rw [wordXNN, hfx]
  exact (BitVec.extractLsb'_append_extractLsb'_eq_extractLsb' rfl).trans BitVec.extractLsb'_eq_self

theorem wordXYN_fields (w : Word) : wordXYN (family w) (fieldX w) (fieldY w) (fieldN w) = w := by
  have hnn : nibbleOf (fieldY w) ++ fieldN w = fieldNN w :=
    BitVec.extractLsb'_append_extractLsb'_eq_extractLsb' rfl
  have hassoc : wordXYN (family w) (fieldX w) (fieldY w) (fieldN w) =
      wordXNN (family w) (fieldX w) (nibbleOf (fieldY w) ++ fieldN w) := BitVec.append_assoc
  rw [hassoc, hnn, wordXNN_fields]

theorem nibble_and_ones (a : Nibble) : a &&& 0xF = a := BitVec.and_allOnes

theorem nibble_and_zero (a : Nibble) : a &&& 0 = 0 := BitVec.and_zero

theorem byte_and_ones (a : Byte) : a &&& 0xFF = a := BitVec.and_allOnes

/-- Masking a word nibble by nibble. -/
theorem and_nibbles (w : Word) (a b c d : Nibble) :
    w &&& (a ++ b ++ c ++ d : Word) =
      (family w &&& a) ++ (nibbleOf (fieldX w) &&& b) ++ (nibbleOf (fieldY w) &&& c) ++ (fieldN w &&& d) := by
  rw [← BitVec.and_append, ← BitVec.and_append, ← BitVec.and_append]
  exact congrArg (fun u : Word => u &&& (a ++ b ++ c ++ d : Word)) (wordXYN_fields w).symm

/-- Masking a word by its two top nibbles and its low byte. -/
theorem and_nibbles_byte (w : Word) (a b : Nibble) (c : Byte) :
    w &&& (a ++ b ++ c : Word) = (family w &&& a) ++ (nibbleOf (fieldX w) &&& b) ++ (fieldNN w &&& c) := by
  rw [← BitVec.and_append, ← BitVec.and_append]
  exact congrArg (fun u : Word => u &&& (a ++ b ++ c : Word)) (wordXNN_fields w).symm

/-- The bits that select the row of a family with one row. -/
theorem and_F000 (w : Word) : w &&& 0xF000#16 = wordXYN (family w) 0 0 0 := by
  have h := and_nibbles w 0xF 0 0 0
  rw [nibble_and_ones, nibble_and_zero, nibble_and_zero, nibble_and_zero] at h
  exact h

/-- The bits that select the row of family 8. -/
theorem and_F00F (w : Word) : w &&& 0xF00F#16 = wordXYN (family w) 0 0 (fieldN w) := by
  have h := and_nibbles w 0xF 0 0 0xF
  rw [nibble_and_ones, nibble_and_ones, nibble_and_zero, nibble_and_zero] at h
  exact h

/-- The bits that select the row of families 0, E and F; they are also the bits of CLS and RET (R84, D3). -/
theorem and_F0FF (w : Word) : w &&& 0xF0FF#16 = wordXNN (family w) 0 (fieldNN w) := by
  have h := and_nibbles_byte w 0xF 0 0xFF
  rw [nibble_and_ones, nibble_and_zero, byte_and_ones] at h
  exact h

/-- R85 (D4): w[3:0] is no operand of SE and SNE on two registers. -/
theorem and_FFF0 (w : Word) : w &&& 0xFFF0 = wordXYN (family w) (fieldX w) (fieldY w) 0 := by
  have h := and_nibbles w 0xF 0xF 0xF 0
  rw [nibble_and_ones, nibble_and_ones, nibble_and_ones, nibble_and_zero] at h
  exact h

/-! ### Encoding what decodes -/

section

variable {w : Word} {f : Nibble}

theorem wordNNN_used (hf : family w = f) : wordNNN f (fieldNNN w) = w &&& 0xFFFF := by
  rw [← hf, wordNNN_fields]
  exact BitVec.and_allOnes.symm

theorem wordXNN_used (hf : family w = f) {nn : Byte} (hnn : fieldNN w = nn) :
    wordXNN f (fieldX w) nn = w &&& 0xFFFF := by
  rw [← hf, ← hnn, wordXNN_fields]
  exact BitVec.and_allOnes.symm

theorem wordXYN_used (hf : family w = f) {n : Nibble} (hn : fieldN w = n) :
    wordXYN f (fieldX w) (fieldY w) n = w &&& 0xFFFF := by
  rw [← hf, ← hn, wordXYN_fields]
  exact BitVec.and_allOnes.symm

theorem wordXYN_used_ignoring_n (hf : family w = f) : wordXYN f (fieldX w) (fieldY w) 0 = w &&& 0xFFF0 := by
  rw [← hf, and_FFF0]

theorem wordXNN_used_ignoring_x (hf : family w = f) {nn : Byte} (hnn : fieldNN w = nn) :
    wordXNN f 0 nn = w &&& 0xF0FF := by
  rw [← hf, ← hnn]
  exact (and_F0FF w).symm

end

end Sys2Proof

namespace Sys2Proof.Machine

/-- The instruction is well-formed, and its word is `w` but for the bits that the decoder ignores. -/
def Encodes (w : Word) (i : Instr) : Prop := i.wellFormed = true ∧ encode i = w &&& usedBits i

section

variable {w : Word} {i : Instr}

theorem encodes_of_ite {c : Prop} [Decidable c] {j : Instr} {d : Except DecodeError Instr}
    (h : (if c then .ok j else d) = .ok i) (hj : c → Encodes w j) (hd : d = .ok i → Encodes w i) : Encodes w i := by
  by_cases hc : c
  · rw [if_pos hc] at h
    cases h
    exact hj hc
  · rw [if_neg hc] at h
    exact hd h

theorem encodes_of_family0 (hf : family w = 0x0#4) (h : decodeFamily0 w = .ok i) : Encodes w i := by
  unfold decodeFamily0 at h
  iterate 2 refine encodes_of_ite h (fun hnn => ⟨rfl, wordXNN_used_ignoring_x hf hnn⟩) fun h => ?_
  cases h

theorem encodes_of_family8 (hf : family w = 0x8#4) (h : decodeFamily8 w = .ok i) : Encodes w i := by
  unfold decodeFamily8 at h
  iterate 9 refine encodes_of_ite h (fun hn => ⟨rfl, wordXYN_used hf hn⟩) fun h => ?_
  cases h

theorem encodes_of_familyE (hf : family w = 0xE#4) (h : decodeFamilyE w = .ok i) : Encodes w i := by
  unfold decodeFamilyE at h
  iterate 2 refine encodes_of_ite h (fun hnn => ⟨rfl, wordXNN_used hf hnn⟩) fun h => ?_
  cases h

theorem encodes_of_familyF (hf : family w = 0xF#4) (h : decodeFamilyF w = .ok i) : Encodes w i := by
  unfold decodeFamilyF at h
  iterate 9 refine encodes_of_ite h (fun hnn => ⟨rfl, wordXNN_used hf hnn⟩) fun h => ?_
  cases h

theorem encodes_drw (hf : family w = 0xD#4) : Encodes w (.drw (fieldX w) (fieldY w) (fieldN w).toNat) :=
  ⟨decide_eq_true (fieldN w).isLt, wordXYN_used hf (by simp)⟩

end

/-- Settles O14: in each family the encoder puts the operands back into the fields they were read from. -/
theorem encodeOfDecodedKeepsUsedBits : Obligations.EncodeOfDecodedKeepsUsedBits := by
  intro w i hi
  rcases nibble_cases (family w) with hf | hf | hf | hf | hf | hf | hf | hf | hf | hf | hf | hf | hf | hf | hf | hf
  · exact encodes_of_family0 hf (decodeWord_family0 hf ▸ hi)
  · cases (decodeWord_family1 hf).symm.trans hi; exact ⟨rfl, wordNNN_used hf⟩
  · cases (decodeWord_family2 hf).symm.trans hi; exact ⟨rfl, wordNNN_used hf⟩
  · cases (decodeWord_family3 hf).symm.trans hi; exact ⟨rfl, wordXNN_used hf rfl⟩
  · cases (decodeWord_family4 hf).symm.trans hi; exact ⟨rfl, wordXNN_used hf rfl⟩
  · cases (decodeWord_family5 hf).symm.trans hi; exact ⟨rfl, wordXYN_used_ignoring_n hf⟩
  · cases (decodeWord_family6 hf).symm.trans hi; exact ⟨rfl, wordXNN_used hf rfl⟩
  · cases (decodeWord_family7 hf).symm.trans hi; exact ⟨rfl, wordXNN_used hf rfl⟩
  · exact encodes_of_family8 hf (decodeWord_family8 hf ▸ hi)
  · cases (decodeWord_family9 hf).symm.trans hi; exact ⟨rfl, wordXYN_used_ignoring_n hf⟩
  · cases (decodeWord_familyA hf).symm.trans hi; exact ⟨rfl, wordNNN_used hf⟩
  · cases (decodeWord_familyB hf).symm.trans hi; exact ⟨rfl, wordNNN_used hf⟩
  · cases (decodeWord_familyC hf).symm.trans hi; exact ⟨rfl, wordXNN_used hf rfl⟩
  · cases (decodeWord_familyD hf).symm.trans hi; exact encodes_drw hf
  · exact encodes_of_familyE hf (decodeWord_familyE hf ▸ hi)
  · exact encodes_of_familyF hf (decodeWord_familyF hf ▸ hi)

end Sys2Proof.Machine

/-! ### The opcode table (30_encoding.md R83) -/

namespace Sys2Proof.Machine

section

variable (name : String) (c w : Word)

/-- A row of a family with one row fits the words of its family. -/
theorem fits_F000 (hc : c &&& 0xF000#16 = c) :
    OpcodeRow.fits ⟨name, c, 0xF000#16⟩ w = decide (family w = c.extractLsb' 12 4) := by
  refine (beq_eq_decide _ _).trans (decide_eq_decide.2 ⟨fun h => ?_, fun hf => ?_⟩)
  · have hfam := congrArg family (show w &&& 0xF000#16 = c from h)
    rwa [and_F000, family_wordXYN] at hfam
  · change w &&& 0xF000#16 = c
    rw [and_F000] at hc ⊢
    rwa [hf]

/-- A row of family 8 fits the words of the family that hold its w[3:0]. -/
theorem fits_F00F (hc : c &&& 0xF00F#16 = c) :
    OpcodeRow.fits ⟨name, c, 0xF00F#16⟩ w =
      decide (family w = c.extractLsb' 12 4 ∧ fieldN w = c.extractLsb' 0 4) := by
  refine (beq_eq_decide _ _).trans (decide_eq_decide.2 ⟨fun h => ?_, fun ⟨hf, hn⟩ => ?_⟩)
  · have hfam := congrArg family (show w &&& 0xF00F#16 = c from h)
    have hlow := congrArg fieldN (show w &&& 0xF00F#16 = c from h)
    rw [and_F00F, family_wordXYN] at hfam
    rw [and_F00F, fieldN_wordXYN] at hlow
    exact ⟨hfam, hlow⟩
  · change w &&& 0xF00F#16 = c
    rw [and_F00F] at hc ⊢
    rwa [hf, hn]

/-- A row of families 0, E and F fits the words of its family that hold its w[7:0]. -/
theorem fits_F0FF (hc : c &&& 0xF0FF#16 = c) :
    OpcodeRow.fits ⟨name, c, 0xF0FF#16⟩ w =
      decide (family w = c.extractLsb' 12 4 ∧ fieldNN w = c.extractLsb' 0 8) := by
  refine (beq_eq_decide _ _).trans (decide_eq_decide.2 ⟨fun h => ?_, fun ⟨hf, hnn⟩ => ?_⟩)
  · have hfam := congrArg family (show w &&& 0xF0FF#16 = c from h)
    have hlow := congrArg fieldNN (show w &&& 0xF0FF#16 = c from h)
    rw [and_F0FF, family_wordXNN] at hfam
    rw [and_F0FF, fieldNN_wordXNN] at hlow
    exact ⟨hfam, hlow⟩
  · change w &&& 0xF0FF#16 = c
    rw [and_F0FF] at hc ⊢
    rwa [hf, hnn]

end

/-- w[7:0] of the rows of family 0 (R83). -/
def operations0 : List Byte := [0xE0#8, 0xEE#8]

/-- w[3:0] of the rows of family 8 (R83). -/
def operations8 : List Nibble := [0x0#4, 0x1#4, 0x2#4, 0x3#4, 0x4#4, 0x5#4, 0x6#4, 0x7#4, 0xE#4]

/-- w[7:0] of the rows of family E (R83). -/
def operationsE : List Byte := [0x9E#8, 0xA1#8]

/-- w[7:0] of the rows of family F (R83). -/
def operationsF : List Byte := [0x07#8, 0x0A#8, 0x15#8, 0x18#8, 0x1E#8, 0x29#8, 0x33#8, 0x55#8, 0x65#8]

/-- The table's rows of the family `f`. -/
def rowsOfFamily (f : Nibble) : List OpcodeRow := opcodeTable.filter (fun r => family r.fixed == f)

theorem family_and_F000 (w : Word) : family (w &&& 0xF000#16) = family w := by
  rw [and_F000, family_wordXYN]

/-- A row whose mask holds w[15:12] fits words of its own family only. -/
theorem family_eq_of_fits {r : OpcodeRow} {w : Word} (hmask : r.mask &&& 0xF000#16 = 0xF000#16)
    (h : r.fits w = true) : family r.fixed = family w := by
  have hfixed : w &&& r.mask = r.fixed := eq_of_beq h
  rw [← family_and_F000, ← hfixed, BitVec.and_assoc, hmask, family_and_F000]

theorem opcodeTable_mask : ∀ r ∈ opcodeTable, r.mask &&& 0xF000#16 = 0xF000#16 := by decide

/-- Only the rows of a word's own family have to be looked at. -/
theorem filter_fits_eq (w : Word) :
    opcodeTable.filter (fun r => r.fits w) = (rowsOfFamily (family w)).filter (fun r => r.fits w) := by
  rw [rowsOfFamily, List.filter_filter]
  refine List.filter_congr fun r hr => ?_
  cases h : r.fits w with
  | false => rfl
  | true => rw [family_eq_of_fits (opcodeTable_mask r hr) h, beq_self_eq_true]; rfl

/-- The mnemonics of the table's rows that fit a word. -/
def mnemonicsFitting (w : Word) : List String := (opcodeTable.filter (fun r => r.fits w)).map OpcodeRow.mnemonic

/-- The mnemonic of what the decoder answers. -/
@[simp] def mnemonicsDecoded : Except DecodeError Instr → List String
  | .ok i => [mnemonicOf i]
  | .error _ => []

section

variable {w : Word}

/-- In a family with one row that row fits every word. -/
theorem mnemonicsFitting_single {name : String} {c : Word} (hf : family w = family c)
    (hrows : rowsOfFamily (family c) = [⟨name, c, 0xF000⟩]) (hc : c &&& 0xF000#16 = c) :
    mnemonicsFitting w = [name] := by
  have hfits : OpcodeRow.fits ⟨name, c, 0xF000⟩ w = true :=
    (fits_F000 name c w hc).trans (decide_eq_true hf)
  have hfilter : [(⟨name, c, 0xF000⟩ : OpcodeRow)].filter (fun r => r.fits w) = [⟨name, c, 0xF000⟩] :=
    List.filter_eq_self.2 (List.forall_mem_singleton.2 hfits)
  rw [mnemonicsFitting, filter_fits_eq, hf, hrows, hfilter]
  rfl

theorem mnemonicsFitting_family0 (hf : family w = 0x0#4) :
    mnemonicsFitting w = mnemonicsDecoded (decodeFamily0 w) := by
  have hrows : rowsOfFamily 0x0#4 = opcodeTable.take 2 := rfl
  rw [mnemonicsFitting, filter_fits_eq, hf, hrows, opcodeTable]
  by_cases hop : fieldNN w ∈ operations0
  · simp only [operations0, List.mem_cons, List.not_mem_nil, or_false] at hop
    rcases hop with hop | hop <;>
      simp [decodeFamily0, fits_F0FF, hf, hop, mnemonicOf]
  · simp only [operations0, List.mem_cons, List.not_mem_nil, or_false, not_or] at hop
    simp [decodeFamily0, fits_F0FF, hf, hop]

theorem mnemonicsFitting_family8 (hf : family w = 0x8#4) :
    mnemonicsFitting w = mnemonicsDecoded (decodeFamily8 w) := by
  have hrows : rowsOfFamily 0x8#4 = (opcodeTable.drop 9).take 9 := rfl
  rw [mnemonicsFitting, filter_fits_eq, hf, hrows, opcodeTable]
  by_cases hop : fieldN w ∈ operations8
  · simp only [operations8, List.mem_cons, List.not_mem_nil, or_false] at hop
    rcases hop with hop | hop | hop | hop | hop | hop | hop | hop | hop <;>
      simp [decodeFamily8, fits_F00F, hf, hop, mnemonicOf]
  · simp only [operations8, List.mem_cons, List.not_mem_nil, or_false, not_or] at hop
    simp [decodeFamily8, fits_F00F, hf, hop]

theorem mnemonicsFitting_familyE (hf : family w = 0xE#4) :
    mnemonicsFitting w = mnemonicsDecoded (decodeFamilyE w) := by
  have hrows : rowsOfFamily 0xE#4 = (opcodeTable.drop 23).take 2 := rfl
  rw [mnemonicsFitting, filter_fits_eq, hf, hrows, opcodeTable]
  by_cases hop : fieldNN w ∈ operationsE
  · simp only [operationsE, List.mem_cons, List.not_mem_nil, or_false] at hop
    rcases hop with hop | hop <;>
      simp [decodeFamilyE, fits_F0FF, hf, hop, mnemonicOf]
  · simp only [operationsE, List.mem_cons, List.not_mem_nil, or_false, not_or] at hop
    simp [decodeFamilyE, fits_F0FF, hf, hop]

theorem mnemonicsFitting_familyF (hf : family w = 0xF#4) :
    mnemonicsFitting w = mnemonicsDecoded (decodeFamilyF w) := by
  have hrows : rowsOfFamily 0xF#4 = opcodeTable.drop 25 := rfl
  rw [mnemonicsFitting, filter_fits_eq, hf, hrows, opcodeTable]
  by_cases hop : fieldNN w ∈ operationsF
  · simp only [operationsF, List.mem_cons, List.not_mem_nil, or_false] at hop
    rcases hop with hop | hop | hop | hop | hop | hop | hop | hop | hop <;>
      simp [decodeFamilyF, fits_F0FF, hf, hop, mnemonicOf]
  · simp only [operationsF, List.mem_cons, List.not_mem_nil, or_false, not_or] at hop
    simp [decodeFamilyF, fits_F0FF, hf, hop]

end

/-- Settles O15: only the rows of a word's own family can fit it, and there its operation field, if the family has one,
selects the decoder's row. -/
theorem decodeFollowsOpcodeTable : Obligations.DecodeFollowsOpcodeTable := by
  intro w
  change mnemonicsFitting w = mnemonicsDecoded (decodeWord w)
  rcases nibble_cases (family w) with hf | hf | hf | hf | hf | hf | hf | hf | hf | hf | hf | hf | hf | hf | hf | hf
  · rw [decodeWord_family0 hf, mnemonicsFitting_family0 hf]
  · rw [decodeWord_family1 hf]; exact mnemonicsFitting_single (c := 0x1000) hf rfl rfl
  · rw [decodeWord_family2 hf]; exact mnemonicsFitting_single (c := 0x2000) hf rfl rfl
  · rw [decodeWord_family3 hf]; exact mnemonicsFitting_single (c := 0x3000) hf rfl rfl
  · rw [decodeWord_family4 hf]; exact mnemonicsFitting_single (c := 0x4000) hf rfl rfl
  · rw [decodeWord_family5 hf]; exact mnemonicsFitting_single (c := 0x5000) hf rfl rfl
  · rw [decodeWord_family6 hf]; exact mnemonicsFitting_single (c := 0x6000) hf rfl rfl
  · rw [decodeWord_family7 hf]; exact mnemonicsFitting_single (c := 0x7000) hf rfl rfl
  · rw [decodeWord_family8 hf, mnemonicsFitting_family8 hf]
  · rw [decodeWord_family9 hf]; exact mnemonicsFitting_single (c := 0x9000) hf rfl rfl
  · rw [decodeWord_familyA hf]; exact mnemonicsFitting_single (c := 0xA000) hf rfl rfl
  · rw [decodeWord_familyB hf]; exact mnemonicsFitting_single (c := 0xB000) hf rfl rfl
  · rw [decodeWord_familyC hf]; exact mnemonicsFitting_single (c := 0xC000) hf rfl rfl
  · rw [decodeWord_familyD hf]; exact mnemonicsFitting_single (c := 0xD000) hf rfl rfl
  · rw [decodeWord_familyE hf, mnemonicsFitting_familyE hf]
  · rw [decodeWord_familyF hf, mnemonicsFitting_familyF hf]

end Sys2Proof.Machine

/-! ### Unmatched words (30_encoding.md R86) -/

namespace Sys2Proof.Machine

/-- A chain of comparisons fails where none of them holds. -/
theorem ite_ok_eq_error_iff {c : Prop} [Decidable c] {i : Instr} {d : Except DecodeError Instr} {e : DecodeError} :
    (if c then .ok i else d) = .error e ↔ ¬ c ∧ d = .error e := by
  split_ifs with h <;> simp [h]

section

variable (w : Word) (e : DecodeError)

theorem decodeFamily0_error_iff :
    decodeFamily0 w = .error e ↔ fieldNN w ∉ operations0 ∧ .unmatchedFamily0 = e := by
  simp [decodeFamily0, operations0, ite_ok_eq_error_iff, and_assoc]

theorem decodeFamily8_error_iff :
    decodeFamily8 w = .error e ↔ fieldN w ∉ operations8 ∧ .unmatchedFamily8 = e := by
  simp [decodeFamily8, operations8, ite_ok_eq_error_iff, and_assoc]

theorem decodeFamilyE_error_iff :
    decodeFamilyE w = .error e ↔ fieldNN w ∉ operationsE ∧ .unmatchedFamilyE = e := by
  simp [decodeFamilyE, operationsE, ite_ok_eq_error_iff, and_assoc]

theorem decodeFamilyF_error_iff :
    decodeFamilyF w = .error e ↔ fieldNN w ∉ operationsF ∧ .unmatchedFamilyF = e := by
  simp [decodeFamilyF, operationsF, ite_ok_eq_error_iff, and_assoc]

/-- Only the four families with several rows have unmatched words. -/
theorem decodeWord_error_iff :
    decodeWord w = .error e ↔
      (family w = 0x0#4 ∧ decodeFamily0 w = .error e) ∨ (family w = 0x8#4 ∧ decodeFamily8 w = .error e) ∨
      (family w = 0xE#4 ∧ decodeFamilyE w = .error e) ∨ (family w = 0xF#4 ∧ decodeFamilyF w = .error e) := by
  rcases nibble_cases (family w) with hf | hf | hf | hf | hf | hf | hf | hf | hf | hf | hf | hf | hf | hf | hf | hf
  · simp [decodeWord_family0 hf, hf]
  · simp [decodeWord_family1 hf, hf]
  · simp [decodeWord_family2 hf, hf]
  · simp [decodeWord_family3 hf, hf]
  · simp [decodeWord_family4 hf, hf]
  · simp [decodeWord_family5 hf, hf]
  · simp [decodeWord_family6 hf, hf]
  · simp [decodeWord_family7 hf, hf]
  · simp [decodeWord_family8 hf, hf]
  · simp [decodeWord_family9 hf, hf]
  · simp [decodeWord_familyA hf, hf]
  · simp [decodeWord_familyB hf, hf]
  · simp [decodeWord_familyC hf, hf]
  · simp [decodeWord_familyD hf, hf]
  · simp [decodeWord_familyE hf, hf]
  · simp [decodeWord_familyF hf, hf]

theorem family_toNat : (family w).toNat = w.toNat / 4096 := by
  have hw := w.isLt
  rw [family, BitVec.extractLsb'_toNat, Nat.shiftRight_eq_div_pow]
  omega

theorem fieldN_toNat : (fieldN w).toNat = w.toNat % 16 := by
  rw [fieldN, BitVec.extractLsb'_toNat, Nat.shiftRight_zero]

theorem fieldNN_toNat : (fieldNN w).toNat = w.toNat % 256 := by
  rw [fieldNN, BitVec.extractLsb'_toNat, Nat.shiftRight_zero]

end

/-- Settles O16: each of the four families reports its own reason, on the words its chain of comparisons lets through. -/
theorem unmatchedWordsAreTheListedOnes : Obligations.UnmatchedWordsAreTheListedOnes := by
  intro w
  simp only [decodeWord_error_iff, decodeFamily0_error_iff, decodeFamily8_error_iff, decodeFamilyE_error_iff,
    decodeFamilyF_error_iff, operations0, operations8, operationsE, operationsF, List.mem_cons, List.not_mem_nil,
    ← BitVec.toNat_inj, family_toNat, fieldN_toNat, fieldNN_toNat, BitVec.reduceToNat, reduceCtorEq, ne_eq, and_false,
    or_false, false_or, not_or, and_true, true_and, not_false_eq_true, iff_self]
  omega

end Sys2Proof.Machine

/-! ### What each piece of state is written by -/

namespace Sys2Proof.Machine

/-- Settles O29: the frame of every other instruction keeps SP and the stack; CALL and RET, when they report no error,
push and pop. -/
theorem stackChangedOnlyByCallAndReturn : Obligations.StackChangedOnlyByCallAndReturn := by
  intro s t h hok
  obtain ⟨hn, rfl⟩ | ⟨i, u, hn, hu, rfl⟩ := step_cases_nextInstr h
  · simp [hn]
  rw [State.endStep_reply] at hok
  rw [hn, State.endStep_sp, State.endStep_stack]
  cases i with
  | call nnn =>
    obtain ⟨-, rfl⟩ | ⟨-, rfl⟩ := exec_call_cases hu
    · cases hok
    · exact ⟨rfl, Vector.getElem_set_self (stackSlot s.sp).isLt,
        fun k hk => Vector.getElem_set_ne (stackSlot s.sp).isLt k.isLt hk.symm⟩
  | ret =>
    obtain ⟨-, rfl⟩ | ⟨-, rfl⟩ := exec_ret_cases hu
    · cases hok
    · exact ⟨toNat_ofNat_popSlot s.sp, rfl⟩
  | _ => exact ⟨exec_frame hu .sp (by simp), exec_frame hu .stack (by simp)⟩

/-- Settles O30: the frame of every other instruction keeps the display; CLS writes the blank one, and DRW the sprite
engine's. -/
theorem displayChangedOnlyByClsAndDrw : Obligations.DisplayChangedOnlyByClsAndDrw := by
  refine ⟨fun s t h => ?_, fun s px py _ _ => Display.cell_blank px py⟩
  obtain ⟨hn, rfl⟩ | ⟨i, u, hn, hu, rfl⟩ := step_cases_nextInstr h
  · simp [hn]
  rw [hn, State.endStep_disp]
  cases i with
  | cls => cases hu; exact fun px py _ _ => Display.cell_blank px py
  | drw x y n => cases hu; exact fun px py hx hy => s.drawn_cell x y n hx hy
  | _ => exact exec_frame hu .disp (by simp)

/-- A store changes only bytes of its range (mod 4096: D10). -/
theorem Memory.exists_of_read_writeBytes_ne {m : Memory} {a k : Nat} {bs : List Byte} (hm : Memory.wf m = true)
    (h : Memory.read (Memory.writeBytes m a bs) k ≠ Memory.read m k) :
    ∃ j < bs.length, k % 4096 = (a + j) % 4096 := by
  by_contra hnone
  exact h (Memory.read_writeBytes_outside m a k bs hm fun j hj heq => hnone ⟨j, hj, heq⟩)

/-- Settles O33: the frame of every other instruction keeps memory, and a store changes bytes of its range only. -/
theorem memoryWrittenOnlyByBcdAndDump : Obligations.MemoryWrittenOnlyByBcdAndDump := by
  rintro s t a ⟨hwf, -⟩ h hne
  obtain ⟨hn, rfl⟩ | ⟨i, u, hn, hu, rfl⟩ := step_cases_nextInstr h
  · rw [State.endStep_memRead, State.unmatched_frame] at hne
    exact absurd rfl hne
  rw [State.endStep_memRead] at hne
  cases i with
  | ldB x =>
    cases hu
    obtain ⟨k, hk, ha⟩ := Memory.exists_of_read_writeBytes_ne hwf hne
    exact .inl ⟨x, k, hn, Nat.le_of_lt_succ hk, ha⟩
  | ldMemVx x =>
    cases hu
    obtain ⟨k, hk, ha⟩ := Memory.exists_of_read_writeBytes_ne hwf hne
    rw [State.regsUpTo_length] at hk
    exact .inr ⟨x, k, hn, Nat.le_of_lt_succ hk, ha⟩
  | _ => exact absurd (exec_frame hu .mem (by simp) a) hne

/-! ### The timers (R210, R242) -/

/-- Settles O24: the tick follows the instruction, and only FX15 and FX18 write a timer before it. -/
theorem timersTickOncePerStep : Obligations.TimersTickOncePerStep := by
  intro s t h hok
  obtain ⟨hn, rfl⟩ | ⟨i, u, hn, hu, rfl⟩ := step_cases_nextInstr h
  all_goals
    rw [State.endStep_reply] at hok
    rw [hn, State.endStep_dt_toNat hok, State.endStep_st_toNat hok]
  · simp
  cases i with
  | ldDtVx x => cases hu; exact ⟨rfl, rfl⟩
  | ldStVx x => cases hu; exact ⟨rfl, rfl⟩
  | _ =>
    have hdt : u.dt = s.dt := exec_frame hu .dt (by simp)
    have hst : u.st = s.st := exec_frame hu .st (by simp)
    rw [hdt, hst]
    exact ⟨rfl, rfl⟩

/-- A step that reports no error and sets no timer is a tick of both. -/
theorem timers_of_step {s t : State} (h : step s = .next t) (hok : t.reply = .ok)
    (hset : ∀ x, s.nextInstr ≠ some (.ldDtVx x) ∧ s.nextInstr ≠ some (.ldStVx x)) :
    t.dt.toNat = s.dt.toNat - 1 ∧ t.st.toNat = s.st.toNat - 1 := by
  obtain ⟨hdt, hst⟩ := timersTickOncePerStep s t h hok
  rw [hdt, hst]
  constructor
  · split
    · next x hx => exact absurd hx (hset x).1
    · rfl
  · split
    · next x hx => exact absurd hx (hset x).2
    · rfl

/-- Settles O25, by induction on the number of steps, from the first one on. -/
theorem timersReachZeroAndStay : Obligations.TimersReachZeroAndStay := by
  intro k
  induction k with
  | zero =>
    intro s t h _
    cases h
    exact ⟨rfl, rfl⟩
  | succ k ih =>
    intro s t h hall
    obtain ⟨u, hu, hrest⟩ := HostOp.applyAll_cons_iff.1 h
    obtain ⟨⟨u', hu', hok⟩, hset⟩ := hall 0 (Nat.succ_pos k) s rfl
    cases hu'.symm.trans hu
    obtain ⟨hdt, hst⟩ := timers_of_step hu hok hset
    obtain ⟨hdt', hst'⟩ := ih u t hrest fun j hj v hv =>
      hall (j + 1) (Nat.succ_lt_succ hj) v (HostOp.applyAll_cons_iff.2 ⟨u, hu, hv⟩)
    exact ⟨by omega, by omega⟩

/-! ### The sound timer is read by no instruction (R32) -/

/-- An instruction overwrites ST or keeps it, and does the same to all else whatever it holds. -/
theorem exec_setSt {i : Instr} {s u : State} (b : Byte) (h : exec i s = .next u) :
    ∃ c, exec i (s.setSt b) = .next (u.setSt c) := by
  cases i with
  | ldStVx x => cases h; exact ⟨s.reg x, rfl⟩
  | ret =>
    obtain ⟨hc, rfl⟩ | ⟨hc, rfl⟩ := exec_ret_cases h
    · exact ⟨b, exec_ret_underflow hc⟩
    · exact ⟨b, exec_ret_pop hc⟩
  | call nnn =>
    obtain ⟨hc, rfl⟩ | ⟨hc, rfl⟩ := exec_call_cases h
    · exact ⟨b, exec_call_overflow hc⟩
    · exact ⟨b, exec_call_push hc⟩
  | ldVxK x =>
    obtain ⟨hk, rfl⟩ | ⟨k, hk, rfl⟩ := exec_ldVxK_cases h
    · exact ⟨b, exec_ldVxK_wait hk⟩
    · exact ⟨b, exec_ldVxK_take hk⟩
  | ldVxMem x => rw [exec_ldVxMem_eq h]; exact ⟨b, rfl⟩
  | _ => cases h; exact ⟨b, rfl⟩

theorem State.endStep_setSt (s : State) (b : Byte) : ∃ c, (s.setSt b).endStep = s.endStep.setSt c := by
  by_cases hok : s.reply = .ok
  · exact ⟨decTimer b, by rw [State.endStep_ok _ hok, State.endStep_ok (s.setSt b) hok]; rfl⟩
  · exact ⟨b, by rw [State.endStep_error _ hok, State.endStep_error (s.setSt b) hok]⟩

theorem State.unmatched_setSt (s : State) (b : Byte) : (s.setSt b).unmatched = s.unmatched.setSt b :=
  (apply_ite (State.setSt · b) (s.cfg.strict = true) (s.raise .unknownInstruction) s).symm

/-- Settles O32: neither the fetch nor an instruction nor the end of the step reads ST for anything but ST. -/
theorem soundTimerIsReadByNoInstruction : Obligations.SoundTimerIsReadByNoInstruction := by
  intro s t b h
  obtain ⟨hn, rfl⟩ | ⟨i, u, hn, hu, rfl⟩ := step_cases_nextInstr h
  · obtain ⟨c, hc⟩ := (s.latch s.fetchWord).unmatched.endStep_setSt b
    refine ⟨c, ?_⟩
    rw [← hc, ← State.unmatched_setSt]
    exact step_of_nextInstr_none (s := s.setSt b) hn
  · obtain ⟨c, hc⟩ := exec_setSt b hu
    obtain ⟨d, hd⟩ := u.endStep_setSt c
    refine ⟨d, ?_⟩
    rw [← hd]
    exact step_of_nextInstr_some (s := s.setSt b) hn hc

/-! ### Call and return, draw and draw -/

/-- A return pops the slot that the call before it pushed to. -/
theorem popSlot_add_one (sp : Word) : popSlot (sp + 1) = stackSlot sp := by
  rw [popSlot, BitVec.add_sub_cancel]

theorem ofNat_stackSlot {sp : Word} (h : sp.toNat < 16) : BitVec.ofNat 16 (stackSlot sp) = sp :=
  (congrArg (BitVec.ofNat 16) (Nat.mod_eq_of_lt h)).trans (by simp)

/-- Settles O36: SP is not 0 after the call, so that the return pops, and the slot it pops holds the call site. -/
theorem returnComesBackAfterCall : Obligations.ReturnComesBackAfterCall := by
  intro nnn s hsp
  have hcall : exec (.call nnn) s = .next ((s.push s.pc).setPc (extAddr nnn)) :=
    exec_call_push fun ⟨_, hfull⟩ => Nat.not_le.2 hsp hfull
  have hnonzero : s.sp + 1 ≠ 0 := by bv_omega
  have hret := exec_ret_pop (s := (s.push s.pc).setPc (extAddr nnn)) fun ⟨_, hzero⟩ => hnonzero hzero
  have hslot : (s.stack.set (stackSlot s.sp) s.pc)[popSlot (s.sp + 1)] = s.pc := by
    simp only [popSlot_add_one, Fin.getElem_fin, Vector.getElem_set_self]
  have hback : BitVec.ofNat 16 (popSlot (s.sp + 1)) = s.sp := by rw [popSlot_add_one, ofNat_stackSlot hsp]
  refine ⟨_, _, hcall, hret, congrArg (· + 2) hslot, hback, fun p hp => ?_⟩
  cases p with
  | pc | stack => simp at hp
  | sp => exact hback
  | mem => exact fun _ => rfl
  | _ => rfl

theorem Display.ext_cell {d d' : Display} (h : ∀ x y, x < 64 → y < 32 → Display.cell d x y = Display.cell d' x y) :
    d = d' := by
  refine Vector.ext fun y hy => Vector.ext fun x hx => ?_
  simpa [Display.cell, hx, hy] using h x y hx hy

/-- What a sprite covers depends on memory and I only. -/
theorem spriteCovers_congr {s t : State} (hmem : t.mem = s.mem) (hi : t.i = s.i) (x0 y0 n px py : Nat) :
    SpriteCovers t x0 y0 n px py ↔ SpriteCovers s x0 y0 n px py := by
  simp only [SpriteCovers, State.memRead, hmem, hi]

/-- Settles O53: the second draw covers the same cells, and flips them back; on a blank display those that the first
one covered are then the lit ones. -/
theorem drawingTwiceRestoresDisplay : Obligations.DrawingTwiceRestoresDisplay := by
  intro x y n s t u ht hu hx hy
  have htvf := exec_drw_vf ht
  have huvf := exec_drw_vf hu
  have htdisp : t.disp = (s.drawn x y n).1 := by cases ht; rfl
  have hudisp : u.disp = (t.drawn x y n).1 := by cases hu; rfl
  have hmem : t.mem = s.mem := by cases ht; rfl
  have hi : t.i = s.i := by cases ht; rfl
  have hcov (px py : Nat) : SpriteCovers t (t.reg x).toNat (t.reg y).toNat n px py ↔
      SpriteCovers s (s.reg x).toNat (s.reg y).toNat n px py := by
    rw [hx, hy]
    exact spriteCovers_congr hmem hi _ _ _ _ _
  refine ⟨Display.ext_cell fun px py hpx hpy => ?_, fun hblank => ⟨?_, fun ⟨px, py, hpx, hpy, hc⟩ => ?_⟩⟩
  · obtain ⟨hflip, hkeep⟩ := s.drawn_cell x y n hpx hpy
    obtain ⟨hflip', hkeep'⟩ := t.drawn_cell x y n hpx hpy
    rw [hcov, ← hudisp, htdisp] at hflip' hkeep'
    by_cases hc : SpriteCovers s (s.reg x).toNat (s.reg y).toNat n px py
    · rw [hflip' hc, hflip hc, Bool.not_not]
    · rw [hkeep' hc, hkeep hc]
  · have hnone : ¬ (s.drawn x y n).2 = true := by
      rw [State.drawn_hit_iff, hblank]
      rintro ⟨px, py, -, hlit⟩
      rw [Display.cell_blank] at hlit
      cases hlit
    exact htvf.trans (if_neg hnone)
  · have hlit : Display.cell t.disp px py = true := by
      rw [htdisp, (s.drawn_cell x y n hpx hpy).1 hc, hblank, Display.cell_blank]
      rfl
    exact huvf.trans (if_pos ((t.drawn_hit_iff x y n).2 ⟨px, py, (hcov px py).2 hc, hlit⟩))

end Sys2Proof.Machine

/-! ### Memory as data -/

namespace Sys2Proof.Machine

/-- A cell of a memory in canonical form differs from what its address reads as when it is not listed. -/
theorem Memory.byteAt_head_ne {k : Nat} {b : Byte} {m : Memory} (h : Memory.wf ((k, b) :: m) = true) :
    Memory.byteAt ((k, b) :: m) k ≠ unlistedByte k := by
  obtain ⟨-, hb, -, -⟩ := (Memory.wf_cons_iff k b m).1 h
  rwa [Memory.byteAt, if_pos rfl]

/-- No address below the first cell is listed. -/
theorem Memory.byteAt_before_head {k a : Nat} {b : Byte} {m : Memory} (h : Memory.wf ((k, b) :: m) = true)
    (ha : a < k) : Memory.byteAt ((k, b) :: m) a = unlistedByte a := by
  obtain ⟨-, -, hlow, -⟩ := (Memory.wf_cons_iff k b m).1 h
  exact Memory.byteAt_below _ a (List.forall_mem_cons.2 ⟨ha, fun c hc => ha.trans (hlow c hc)⟩)

theorem Memory.eq_of_byteAt_eq {m m' : Memory} (hm : Memory.wf m = true) (hm' : Memory.wf m' = true)
    (h : ∀ a < 4096, Memory.byteAt m a = Memory.byteAt m' a) : m = m' := by
  induction m generalizing m' with
  | nil =>
    cases m' with
    | nil => rfl
    | cons c' m' =>
      obtain ⟨hk', -, -, -⟩ := (Memory.wf_cons_iff c'.1 c'.2 m').1 hm'
      exact absurd (h c'.1 hk').symm (Memory.byteAt_head_ne hm')
  | cons c m ih =>
    obtain ⟨k, b⟩ := c
    obtain ⟨hk, -, hlow, hrest⟩ := (Memory.wf_cons_iff k b m).1 hm
    cases m' with
    | nil => exact absurd (h k hk) (Memory.byteAt_head_ne hm)
    | cons c' m' =>
      obtain ⟨k', b'⟩ := c'
      obtain ⟨hk', -, hlow', hrest'⟩ := (Memory.wf_cons_iff k' b' m').1 hm'
      have hkk : k = k' := by
        rcases Nat.lt_trichotomy k k' with hlt | heq | hgt
        · exact absurd ((h k hk).trans (Memory.byteAt_before_head hm' hlt)) (Memory.byteAt_head_ne hm)
        · exact heq
        · exact absurd ((h k' hk').symm.trans (Memory.byteAt_before_head hm hgt)) (Memory.byteAt_head_ne hm')
      subst hkk
      have hb : b = b' := by simpa [Memory.byteAt] using h k hk
      have htail : m = m' := ih hrest hrest' fun a ha => by
        rcases eq_or_ne k a with rfl | hne
        · rw [Memory.byteAt_below m k hlow, Memory.byteAt_below m' k hlow']
        · simpa [Memory.byteAt, hne] using h a ha
      rw [hb, htail]

/-- Settles O8, by induction on the two lists of cells: their first cells have the same address, and the same byte. -/
theorem memoriesThatReadAlikeAreEqual : Obligations.MemoriesThatReadAlikeAreEqual := by
  intro m m' hm hm' h
  refine Memory.eq_of_byteAt_eq hm hm' fun a ha => ?_
  have hread := h a
  rwa [Memory.read, Memory.read, wrapAddr, Nat.mod_eq_of_lt ha] at hread

theorem glyphAddr_div (g : Fin 16) (k : Fin 5) : (g.val * 5 + k.val) / 5 = g.val := by omega

theorem glyphAddr_mod (g : Fin 16) (k : Fin 5) : (g.val * 5 + k.val) % 5 = k.val := by omega

/-- A memory with no cell reads as the default glyph table where reset puts it (log 3). -/
theorem Memory.read_nil_glyph (g : Fin 16) (k : Fin 5) :
    Memory.read [] (g.val * 5 + k.val) = defaultFont[g][k] := by
  have hlt : g.val * 5 + k.val < 80 := by omega
  have hwrap : wrapAddr (g.val * 5 + k.val) = g.val * 5 + k.val := Nat.mod_eq_of_lt (by omega)
  simp only [Memory.read, Memory.byteAt, hwrap, unlistedByte, dif_pos hlt, glyphAddr_div, glyphAddr_mod]
  rfl

theorem fontBytes_glyph (c : Config) (g : Fin 16) (k : Fin 5) (h : g.val * 5 + k.val < c.fontBytes.length) :
    c.fontBytes[g.val * 5 + k.val] = c.font[g][k] := by
  simp only [Config.fontBytes, List.getElem_ofFn, glyphAddr_div, glyphAddr_mod]
  rfl

/-! ### Reset and load (70_reset_and_hazards.md) -/

theorem State.reg_eq_zero {s : State} (h : s.v = Vector.replicate 16 0) (r : Reg) : s.reg r = 0 := by
  simp [State.reg, h]

theorem State.stack_eq_zero {s : State} (h : s.stack = Vector.replicate 16 0) (k : Fin 16) : s.stack[k] = 0 := by
  simp [h]

theorem State.keyDown_eq_false {s : State} (h : s.keys = Vector.replicate 16 false) (k : Fin 16) :
    s.keyDown k = false := by
  simp [State.keyDown, h]

/-- Settles O1: every register of the reset state is a literal, and its empty memory reads as the glyph table. -/
theorem resetStateHoldsResetValues : Obligations.ResetStateHoldsResetValues :=
  ⟨⟨rfl, rfl, rfl, State.reg_eq_zero rfl, State.stack_eq_zero rfl, State.keyDown_eq_false rfl,
    fun x y _ _ => Display.cell_blank x y, rfl, rfl, Memory.read_nil_glyph⟩, rfl⟩

/-- Settles O2: a memory with no cell is canonical, and SP is 0. -/
theorem resetStateMeetsInvariant : Obligations.ResetStateMeetsInvariant :=
  ⟨Memory.wf_nil, fun _ => Nat.zero_le 16⟩

section

variable {s : State} (hwf : Memory.wf s.mem = true)
include hwf

theorem State.hostReset_memRead_glyph (g : Fin 16) (k : Fin 5) :
    s.hostReset.memRead (g.val * 5 + k.val) = s.cfg.font[g][k] := by
  have hlen := fontBytes_length s.cfg
  have hlt : g.val * 5 + k.val < s.cfg.fontBytes.length := by omega
  have hread := Memory.read_writeBytes_inside s.mem 0 s.cfg.fontBytes hwf (by omega) _ hlt
  rw [Nat.zero_add] at hread
  exact hread.trans (fontBytes_glyph s.cfg g k hlt)

/-- R45, D17: reset writes the glyph table only. -/
theorem State.hostReset_memRead_above {a : Nat} (ha : 80 ≤ a % 4096) : s.hostReset.memRead a = s.memRead a := by
  refine Memory.read_writeBytes_outside s.mem 0 a s.cfg.fontBytes hwf fun j hj => ?_
  rw [fontBytes_length] at hj
  rw [wrapAddr, wrapAddr]
  omega

theorem State.hostReset_holdsResetValues : s.hostReset.HoldsResetValues :=
  ⟨rfl, rfl, rfl, State.reg_eq_zero rfl, State.stack_eq_zero rfl, State.keyDown_eq_false rfl,
    fun x y _ _ => Display.cell_blank x y, rfl, rfl, State.hostReset_memRead_glyph hwf⟩

end

/-- Settles O3: reset writes its literals and the 80 bytes of the glyph table, which lie below the kept ones. -/
theorem hostResetLeavesResetValuesFromAnyState : Obligations.HostResetLeavesResetValuesFromAnyState := fun _ hwf =>
  ⟨State.hostReset_holdsResetValues hwf, rfl, fun _ ha => State.hostReset_memRead_above hwf ha, rfl, rfl, rfl⟩

/-- Bytes written elsewhere than in the glyph table leave the values of R45. -/
theorem State.HoldsResetValues.memWrite {s : State} (h : s.HoldsResetValues) {a : Nat} {bs : List Byte}
    (hglyphs : ∀ k < 80, (s.memWrite a bs).memRead k = s.memRead k) : (s.memWrite a bs).HoldsResetValues := by
  obtain ⟨hpc, hi, hsp, hreg, hstack, hkeys, hdisp, hdt, hst, hfont⟩ := h
  exact ⟨hpc, hi, hsp, hreg, hstack, hkeys, hdisp, hdt, hst,
    fun g k => (hglyphs _ (by omega)).trans (hfont g k)⟩

/-- Settles O4: the image lies above the glyph table and ends below 4096, so that no two of the bytes written fall
together. -/
theorem loadResetsThenCopiesImage : Obligations.LoadResetsThenCopiesImage := by
  intro s image hwf hlen
  have hreset := s.hostReset_wf hwf
  have hout (a : Nat) (ha : a % 4096 < 0x200 ∨ 0x200 + image.length ≤ a % 4096) :
      (s.hostReset.memWrite progOrigin image).memRead a = s.hostReset.memRead a := by
    refine Memory.read_writeBytes_outside _ _ a image hreset fun j hj => ?_
    rw [wrapAddr, wrapAddr, progOrigin]
    omega
  rw [s.load_of_le hlen]
  refine ⟨(State.hostReset_holdsResetValues hwf).memWrite fun k hk => hout k (by omega), rfl, fun j hj => ?_,
    fun a ha ha' => (hout a ha').trans (State.hostReset_memRead_above hwf ha), rfl, rfl, rfl⟩
  exact Memory.read_writeBytes_inside _ _ image hreset (by omega) j hj

/-- Settles O5: the size check comes first, and its error changes the reply only. -/
theorem oversizedLoadChangesNothing : Obligations.OversizedLoadChangesNothing := by
  intro s image hlen
  rw [s.load_of_lt hlen]
  exact ⟨rfl, s.raise_frame .imageTooLarge⟩

/-! ### The read ports -/

theorem State.framebuffer_getElem (s : State) {x y : Nat} (hx : x < 64) (hy : y < 32) :
    s.framebuffer[y * 64 + x] = if Display.cell s.disp x y then 1 else 0 := by
  have hcol : (y * 64 + x) % 64 = x := by omega
  have hrow : (y * 64 + x) / 64 = y := by omega
  simp only [State.framebuffer, Vector.getElem_ofFn, hcol, hrow]

/-- Settles O7: cell (x, y) is at index y × 64 + x, and the snapshot copies the state. -/
theorem readPortsShowTheState : Obligations.ReadPortsShowTheState := fun s =>
  ⟨fun _ _ hx hy => s.framebuffer_getElem hx hy, rfl, rfl, rfl, rfl, rfl, rfl, rfl, rfl, rfl,
    fun _ h => Vector.getElem_ofFn h, rfl, rfl⟩

/-! ### Fetch and step -/

/-- Settles O17: the decoder is run on the seven words. -/
theorem sampleWordsDecode : Obligations.SampleWordsDecode :=
  ⟨rfl, rfl, rfl, rfl, rfl, rfl, rfl⟩

theorem decode_pair_ok_iff {hi lo : Byte} {i : Instr} :
    decode [hi, lo] = .ok (i, []) ↔ decodeWord (joinBytes hi lo) = .ok i := by
  rw [decode]
  cases decodeWord (joinBytes hi lo) <;> simp

theorem decTimer_eq_ofNat (b : Byte) : decTimer b = BitVec.ofNat 8 (b.toNat - 1) :=
  BitVec.eq_of_toNat_eq (by rw [decTimer_toNat, BitVec.toNat_ofNat, Nat.mod_eq_of_lt]; omega)

/-- Settles O18: the fetched word is the joined bytes, so the step runs their instruction and then ticks. -/
theorem stepRunsDecodedInstruction : Obligations.StepRunsDecodedInstruction := by
  intro s i hdec _
  obtain ⟨u, hu⟩ := exec_total i (s.latch s.fetchWord)
  refine ⟨u, hu, ?_⟩
  rw [step_of_nextInstr_some ((s.nextInstr_eq_some_iff i).2 (decode_pair_ok_iff.1 hdec)) hu, State.endStep, State.tick,
    decTimer_eq_ofNat, decTimer_eq_ofNat]
  rfl

theorem joinBytes_highByte_lowByte (w : Word) : joinBytes (highByte w) (lowByte w) = w :=
  (BitVec.extractLsb'_append_extractLsb'_eq_extractLsb' rfl).trans BitVec.extractLsb'_eq_self

theorem tableWord_toNat (w : Word) : tableWord 16 w.toNat = w := by
  rw [tableWord, Nat.mod_eq_of_lt w.isLt, BitVec.ofNat_toNat, BitVec.setWidth_eq]

/-- Settles O20: the two stored bytes are read back, also when they wrap, and join to the word. -/
theorem storedFetchWordIsFetched : Obligations.StoredFetchWordIsFetched := by
  intro s w hwf
  rw [State.withFetchWord, tableWord_toNat]
  have hread := Memory.read_writeBytes_inside s.mem s.pc.toNat [highByte w, lowByte w] hwf (by simp)
  refine ⟨?_, (OnlyChanges.refl _ s).setMem (by simp) _⟩
  have hhi := hread 0 (by simp)
  have hlo := hread 1 (by simp)
  exact (congrArg₂ joinBytes hhi hlo).trans (joinBytes_highByte_lowByte w)

end Sys2Proof.Machine
